-- ==== Sys2Proof/Word.lean ====
section
/-! DEFINITION. The words of the model (R8, R9, R91, R92). Every value is unsigned; there is no sign
extension anywhere in this hardware (R8). -/

namespace Sys2Proof

/-- One byte: the width of every bus cycle (R73). -/
abbrev Byte := BitVec 8

/-- A segment: 16 bits, shifted left by 4 to give a physical address (R9). -/
abbrev Seg := BitVec 16

/-- A 16-bit iteration count (R160). -/
abbrev Count := BitVec 16

/-- A host physical address `p[19:0]` (R60, R91). -/
abbrev PhysAddr := BitVec 20

/-- A device address `A[18:0] = zext_19(DEV_MAP(p))` (R92). -/
abbrev DevAddr := BitVec 19

/-- A device sector number `A[18:12]` (R92). -/
abbrev Sector := BitVec 7

/-- The four address bits `H = A[18:15]` that command decoding ignores (R92, R121). -/
abbrev HighBits := BitVec 4

/-- A device cycle word of 28 bits (R92). -/
abbrev CycleWord := BitVec 28

end Sys2Proof
end

