-- ==== Sys2Proof/Config.lean ====
section
/-! DEFINITION. What an implementation fixes: the fixed constants and the OPEN parameters of R7, and the
free values (draws, the OTHER_MEM oracle, the interleaving). The parameters are data: `State.cfg` holds one
`Config`, no step writes it (R45), and every statement about a state is for every value of it. -/

namespace Sys2Proof

/-! ## Fixed constants (R7) -/

/-- First and third unlock or command offset, CMD_ADDR1 (R7). -/
abbrev CMD_ADDR1 : BitVec 15 := 0x5555#15

/-- Second unlock offset, CMD_ADDR2 (R7). -/
abbrev CMD_ADDR2 : BitVec 15 := 0x2AAA#15

/-- The vendor code of every part, VENDOR_ID (R2, R26). -/
abbrev VENDOR_ID : Byte := 0xBF#8

/-- Erase sector size and image block size in bytes, SECTOR (R7). -/
abbrev SECTOR : Nat := 4096

/-- Image block cap, MAX_BLOCKS (R7). -/
abbrev MAX_BLOCKS : Nat := 64

/-- Command-window size in bytes, WINDOW (R7). -/
abbrev WINDOW : Nat := 0x8000

/-- Command-window size in segments (R7). -/
abbrev WINDOW_SEGS : Nat := 0x800

/-- Overlap scan stride in segments, ROM_STRIDE (R7). -/
abbrev ROM_STRIDE : Nat := 0x80

/-- Reads per calibration inner poll, CAL_TRIES (R7). -/
abbrev CAL_TRIES : Count := 256#16

/-- Sector-erase timeout in units of T, ERASE_UNITS (R7). -/
abbrev ERASE_UNITS : Nat := 1163

/-- Legal destination segment range, SEG_MIN and SEG_MAX (R7). -/
abbrev SEG_MIN : Nat := 0xA000
abbrev SEG_MAX : Nat := 0xF800

/-- Size of the host physical address space: 1 MiB (R60, R62). -/
abbrev PHYS_SIZE : Nat := 0x100000

/-! ## OPEN parameters (R7, 92_eei_decisions.md) -/

/-- The four parts in scope (R2). -/
inductive Part where
  | SST39SF512 | SST39SF010 | SST39SF020 | SST39SF040
  deriving DecidableEq, Repr

/-- Number of 4 KiB sectors of a part: DEV_SIZE / 4096 (R2). -/
def Part.sectors : Part → Nat
  | .SST39SF512 => 16
  | .SST39SF010 => 32
  | .SST39SF020 => 64
  | .SST39SF040 => 128

/-- DEV_SIZE, the array size in bytes (R2). -/
def Part.devSize (p : Part) : Nat := p.sectors * SECTOR

/-- AW, the device address width in bits (R2). -/
def Part.AW : Part → Nat
  | .SST39SF512 => 16
  | .SST39SF010 => 17
  | .SST39SF020 => 18
  | .SST39SF040 => 19

/-- The second software-ID byte of a part (R2). -/
def Part.code : Part → Byte
  | .SST39SF512 => 0xB4
  | .SST39SF010 => 0xB5
  | .SST39SF020 => 0xB6
  | .SST39SF040 => 0xB7

/-- What a poll with 0 iterations does (R7, R160): no read at all, or 65536 reads. -/
inductive PollZero where
  | none | wrap
  deriving DecidableEq, Repr

/-- Real hardware, or the test harness with its 1 MiB scratch buffer (R7, R70). -/
inductive MemCfg where
  | real | test
  deriving DecidableEq, Repr

/-- One run of consecutive 4 KiB host blocks that reach consecutive device sectors. By M2 of R63 a mapping
is determined by the sector each 4 KiB host block reaches, so every DEV_MAP is a list of such regions. -/
structure DevRegion where
  /-- First host block, `p[19:12]`. -/
  hostBlock : Nat
  /-- Number of blocks. -/
  count : Nat
  /-- Device sector that the first block reaches. -/
  sector : Nat
  deriving DecidableEq, Repr

/-- The parameters a model takes (R7). -/
structure Config where
  /-- PART, the part fitted. -/
  part : Part
  /-- DEV_MAP (R63); the first region that holds a host block decides. -/
  devMap : List DevRegion
  /-- TICK_ADDR, where the BIOS tick byte is read. -/
  tickAddr : PhysAddr
  /-- ID_STALE, the ID-mode reads after entry that return stale data. -/
  idStale : Nat
  /-- ID_READS_DEST0, the reads of dest:0 in the ID sequence: 3 or 4. -/
  idReads : Nat
  /-- POLL_ZERO. -/
  pollZero : PollZero
  /-- MEMCFG. -/
  memcfg : MemCfg
  /-- CAL_SENTINEL, the calibration result under MEMCFG = TEST. -/
  calSentinel : Count
  /-- The vendor byte the device answers with under MEMCFG = TEST (R26, R278). -/
  testVendor : Byte
  /-- The device byte the device answers with under MEMCFG = TEST (R26, R278). -/
  testDevice : Byte
  deriving DecidableEq, Repr

/-! ## The bus history's entries (R66) -/

/-- Who put an entry into HIST (R66). -/
inductive Agent where
  | eng | isr | dev
  deriving DecidableEq, Repr

/-- Read, write, or completion of an erase or program (R66). -/
inductive BusKind where
  | R | W | C
  deriving DecidableEq, Repr

/-- One entry of HIST: for a read the value is what the read returned, for a write the data written; a
completion holds the device address where the operation finished, and value 0 (R66). -/
structure BusEvent where
  agent : Agent
  kind : BusKind
  addr : PhysAddr
  value : Byte
  deriving DecidableEq, Repr

/-- Which agent takes the next step, and for the ISR the address it reads (R12, R265, R267). -/
inductive Move where
  | eng | dev | tick
  | isr (p : PhysAddr)
  deriving DecidableEq, Repr, Inhabited

/-! ## Free values

No body: nothing in Lean can evaluate one or prove a value of it. -/

/-- `draw()` (R11): the byte of the k-th draw of a run. Log 9. -/
opaque Config.draw : Nat → Byte

/-- The OTHER_MEM oracle (R64): it sees the history and the address and returns any byte. Log 11. -/
opaque Config.otherMem : List BusEvent → PhysAddr → Byte

/-- What PLAN stores when its window lies above the 16-bit segments: no rule states it. Log 12. -/
opaque Config.segmentAbove : Nat → Seg

/-- The byte at an address of a sector or byte that was being erased or programmed when the power went (R295):
unspecified. Log 36. -/
opaque Config.powerLoss : Nat → Nat → Byte

/-- Which agent moves when the schedule of the state lists no move (R267). Log 3. -/
opaque Config.freeMove : Nat → Move

end Sys2Proof
end

