-- ==== Sys2Proof/Syntax.lean ====
section
/-! DEFINITION. The instructions: one constructor per row of spec/opcode_table.json. The first seven rows are
the device commands of R95; their fields are the fields of R93 and R101. The other seventeen are the engine
operations of R100, which have operands and no encoding. The device's modes stand here too, because they
select which command a read is (R96, R101). -/

namespace Sys2Proof

/-- The mode in which the current unlock pair began (R22). -/
inductive Base where
  | read | id
  deriving DecidableEq, Repr

/-- The device command state: eleven modes (R21). `DEV.base`, `DEV.idStale`, `DEV.esec`, `DEV.paddr` and
`DEV.pdata` hold a value exactly in the modes that carry them here (R22, R23, R24). -/
inductive DevMode where
  /-- READ: reads return array bytes. -/
  | read
  /-- U1: first unlock cycle accepted. -/
  | u1 (base : Base)
  /-- U2: unlock pair accepted, command byte expected. -/
  | u2 (base : Base)
  /-- ID: software-ID mode, with the count of reads that may still be stale. -/
  | id (idStale : Nat)
  /-- E1: erase set-up, second unlock expected. -/
  | e1
  /-- E2: erase second unlock, first cycle accepted. -/
  | e2
  /-- E3: erase confirm byte expected. -/
  | e3
  /-- P1: program address and data cycle expected. -/
  | p1
  /-- EBUSY: sector erase in progress. -/
  | ebusy (esec : Sector)
  /-- PBUSY: byte program in progress. -/
  | pbusy (paddr : DevAddr) (pdata : Byte)
  /-- INDET: indeterminate, nothing is promised. -/
  | indet
  deriving DecidableEq, Repr

/-- An operand that has the name of an engine register: that register, read when a statement evaluates the
operand (and then UnsetRegister if it holds no value, R262), or a value given in place. -/
inductive Operand (α : Type) where
  | reg
  | imm (v : α)
  deriving DecidableEq, Repr

/-- The instructions: the rows of spec/opcode_table.json in the table's order. -/
inductive Instr where
  /-- READ_ARRAY (R123): a read of device address `a`; `v` is the V field of the word, which on the bus holds
  the byte returned and which a read ignores. -/
  | readArray (a : DevAddr) (v : Byte)
  /-- SWID_ENTRY (R126): the H bits of its three cycles. -/
  | swidEntry (h1 h2 h3 : HighBits)
  /-- SWID_READ (R127): fields as `readArray`. -/
  | swidRead (a : DevAddr) (v : Byte)
  /-- SWID_EXIT (R128): the H bits of its cycle. -/
  | swidExit (h1 : HighBits)
  /-- SECTOR_ERASE (R133): the H bits of cycles 1 to 5 and the sector of cycle 6. -/
  | sectorErase (h1 h2 h3 h4 h5 : HighBits) (sec : Sector)
  /-- BYTE_PROGRAM (R136): the H bits of cycles 1 to 3, the target address and the data of cycle 4. -/
  | byteProgram (h1 h2 h3 : HighBits) (a : DevAddr) (d : Byte)
  /-- STATUS_READ (R137): fields as `readArray`. -/
  | statusRead (a : DevAddr) (v : Byte)
  /-- POLL p, v, k (R160). `p` is a natural: at or above 0x100000 the access faults (R62). -/
  | poll (p : Nat) (v : Byte) (k : Count)
  /-- CAL D (R162). -/
  | cal (D : Operand Seg)
  /-- WAIT_PROGRAM p, v (R164). -/
  | waitProgram (p : Nat) (v : Byte)
  /-- WAIT_ERASE p (R165). -/
  | waitErase (p : Nat)
  /-- CS_ENTER (R180). -/
  | csEnter
  /-- CS_EXIT (R181). -/
  | csExit
  /-- DETECT S, D (R182). -/
  | detect (S D : Operand Seg)
  /-- ID_DECODE VID, DID (R183). -/
  | idDecode (VID DID : Operand Byte)
  /-- ERASE_SECTOR S, p (R184). -/
  | eraseSector (S : Operand Seg) (p : Nat)
  /-- PROGRAM_BYTE S, p, v (R185). -/
  | programByte (S : Operand Seg) (p : Nat) (v : Byte)
  /-- PLAN D, L (R213). -/
  | plan (D : Operand Seg) (L : Operand Nat)
  /-- OVERLAP S, D, L (R215). -/
  | overlap (S D : Operand Seg) (L : Operand Nat)
  /-- COMPARE_BLOCK i (R218). -/
  | compareBlock (i : Nat)
  /-- FLASH (R220): its operands D, S, T, IMG and NBLK are the registers. -/
  | flash
  /-- VERIFY (R222): its operands D, IMG and NBLK are the registers. -/
  | verify
  /-- RUN (R226): its operands D and IMG are the registers. -/
  | run
  /-- HALT (R229). -/
  | halt
  deriving DecidableEq, Repr

/-- One device cycle, as the device sees a host cycle (R92). -/
structure Dcw where
  /-- 1 = write, 0 = read. -/
  wr : Bool
  /-- The device address A. -/
  a : DevAddr
  /-- The data V. -/
  v : Byte
  deriving DecidableEq, Repr

end Sys2Proof
end

