-- ==== Sys2Proof/WellFormed.lean ====
section
/-! DEFINITION. Which instructions and which configurations are well formed. -/

namespace Sys2Proof

/-- Bits of a device address at and above AW are 0 (R92): the address is below DEV_SIZE. -/
def DevAddr.fits (part : Part) (a : DevAddr) : Bool := a.toNat < part.devSize

/-- The H bits of a command cycle: those at and above AW are 0 (R92). `H = A[18:15]`. -/
def HighBits.fits (part : Part) (h : HighBits) : Bool := h.toNat * 0x8000 < part.devSize

/-- An instruction is well formed for a part when every device address it puts on the bus is one the part has
(R92), and a block index names one of at most 64 blocks (R31, R211). -/
def Instr.wf (part : Part) : Instr → Bool
  | .readArray a _ => DevAddr.fits part a
  | .swidEntry h1 h2 h3 => HighBits.fits part h1 && HighBits.fits part h2 && HighBits.fits part h3
  | .swidRead a _ => DevAddr.fits part a
  | .swidExit h1 => HighBits.fits part h1
  | .sectorErase h1 h2 h3 h4 h5 sec =>
      HighBits.fits part h1 && HighBits.fits part h2 && HighBits.fits part h3 && HighBits.fits part h4 &&
        HighBits.fits part h5 && decide (sec.toNat < part.sectors)
  | .byteProgram h1 h2 h3 a _ =>
      HighBits.fits part h1 && HighBits.fits part h2 && HighBits.fits part h3 && DevAddr.fits part a
  | .statusRead a _ => DevAddr.fits part a
  | .compareBlock i => decide (i < MAX_BLOCKS)
  | .poll _ _ _ | .cal _ | .waitProgram _ _ | .waitErase _ | .csEnter | .csExit | .detect _ _ | .idDecode _ _
  | .eraseSector _ _ | .programByte _ _ _ | .plan _ _ | .overlap _ _ _ | .flash | .verify | .run | .halt => true

/-! ## The configuration (R7, R63) -/

/-- M1: a region keeps the low 15 bits, so its host block and its sector agree in their low three bits. -/
def DevRegion.lowBitsPass (r : DevRegion) : Bool := r.count = 0 || r.hostBlock % 8 = r.sector % 8

/-- A region reaches only sectors the part has, from host blocks of the 1 MiB space (R60, R63). -/
def DevRegion.inRange (part : Part) (r : DevRegion) : Bool :=
  r.count = 0 || (r.sector + r.count ≤ part.sectors && r.hostBlock + r.count ≤ 0x100)

/-- M3: the tick byte is in no region. -/
def DevRegion.avoids (r : DevRegion) (tick : PhysAddr) : Bool :=
  !(r.hostBlock ≤ tick.toNat / 0x1000 && tick.toNat / 0x1000 < r.hostBlock + r.count)

/-- M4: under MEMCFG = REAL a region lies within 0xA0000 to 0xFFFFF. -/
def DevRegion.upper (memcfg : MemCfg) (r : DevRegion) : Bool :=
  match memcfg with
  | .real => r.count = 0 || 0xA0 ≤ r.hostBlock
  | .test => true

/-- The configuration satisfies R7 and R63 (premise P5 of R292). M2 holds of every list of regions. -/
def Config.wf (c : Config) : Bool :=
  (c.idReads = 3 || c.idReads = 4) &&
    c.devMap.all fun r =>
      r.lowBitsPass && r.inRange c.part && r.avoids c.tickAddr && r.upper c.memcfg

end Sys2Proof
end

