-- ==== Sys2Proof/Decode.lean ====
section
/-! DEFINITION. The words of bus cycles (R91, R92), the decoder of device commands (R93 to R97), and the
encoder, written from the same tables. -/

namespace Sys2Proof

/-! ## Cycle words -/

/-- The 28 bits of a device cycle: WR, A, V (R92). -/
def Dcw.bits (c : Dcw) : CycleWord :=
  BitVec.setWidth 28 ((BitVec.ofBool c.wr ++ c.a : BitVec 20) ++ c.v)

/-- The device cycle a word holds (R92). -/
def Dcw.ofBits (w : CycleWord) : Dcw :=
  ⟨w.getLsbD 27, w.extractLsb' 8 19, w.extractLsb' 0 8⟩

/-- The host bus cycle word of an event, 29 bits: WR, P, V (R91). -/
def BusEvent.hbc (e : BusEvent) : BitVec 29 :=
  BitVec.setWidth 29 ((BitVec.ofBool (decide (e.kind = .W)) ++ e.addr : BitVec 21) ++ e.value)

/-- `O = A[14:0]`, the command offset (R92, R121). -/
def DevAddr.offset (a : DevAddr) : BitVec 15 := a.extractLsb' 0 15

/-- `H = A[18:15]` (R92). -/
def DevAddr.high (a : DevAddr) : HighBits := a.extractLsb' 15 4

/-- `SEC = A[18:12]` (R92). -/
def DevAddr.sector (a : DevAddr) : Sector := a.extractLsb' 12 7

/-- `BOFF = A[11:0]` (R92). -/
def DevAddr.boff (a : DevAddr) : BitVec 12 := a.extractLsb' 0 12

/-- The device address with high bits `h` and command offset `o`. -/
def DevAddr.ofCommand (h : HighBits) (o : BitVec 15) : DevAddr := h ++ o

/-- The device address with sector `sec` and byte offset `boff`. -/
def DevAddr.ofSector (sec : Sector) (boff : BitVec 12) : DevAddr := sec ++ boff

/-- The write cycle of byte `v` at command offset `o` ("a" in the table of R95). -/
def Dcw.command (h : HighBits) (o : BitVec 15) (v : Byte) : Dcw := ⟨true, DevAddr.ofCommand h o, v⟩

/-- Is the cycle a write of `v` at command offset `o`? H is ignored (R94, R121). -/
def Dcw.isCommand (c : Dcw) (o : BitVec 15) (v : Byte) : Bool :=
  c.wr && c.a.offset == o && c.v == v

/-! ## The decoder -/

/-- Why a stream of device cycles begins with no command of R95. -/
inductive DecodeReject where
  /-- No cycle is left. -/
  | noCycle
  /-- A read in U1, U2, E1, E2, E3 or P1 (R97), or in INDET, where no row of the table is accepted (R142). -/
  | readInMode (m : DevMode)
  /-- A first cycle that writes neither 0xAA nor 0xF0 at 0x5555 (R97). -/
  | firstWrite (c : Dcw)
  /-- A second cycle other than 0x55 at 0x2AAA (R97). -/
  | secondUnlock (c : Dcw)
  /-- A third cycle other than 0x90, 0x80 or 0xA0 at 0x5555 (R97). -/
  | commandByte (c : Dcw)
  /-- A fourth cycle of a byte program that is a read (R97). -/
  | programCycle (c : Dcw)
  /-- A fourth or fifth cycle of an erase other than the second unlock pair (R97). -/
  | eraseUnlock (c : Dcw)
  /-- A sixth cycle other than 0x30 at `A[11:0] = 0` (R97). -/
  | eraseConfirm (c : Dcw)
  /-- The stream ends inside a command. -/
  | truncated
  deriving DecidableEq, Repr

/-- Which of the three read commands a read is: the device mode selects it (R96, R101). -/
def decodeRead (m : DevMode) (a : DevAddr) (v : Byte) : Except DecodeReject Instr :=
  match m with
  | .read => .ok (.readArray a v)
  | .id _ => .ok (.swidRead a v)
  | .ebusy _ => .ok (.statusRead a v)
  | .pbusy _ _ => .ok (.statusRead a v)
  | .u1 _ | .u2 _ | .e1 | .e2 | .e3 | .p1 | .indet => .error (.readInMode m)

/-- The last three cycles of a sector erase (R95). -/
def decodeErase (h1 h2 h3 : HighBits) : List Dcw → Except DecodeReject (Instr × List Dcw)
  | c4 :: c5 :: c6 :: rest =>
      if !c4.isCommand CMD_ADDR1 0xAA then .error (.eraseUnlock c4)
      else if !c5.isCommand CMD_ADDR2 0x55 then .error (.eraseUnlock c5)
      else if !(c6.wr && c6.a.boff == 0 && c6.v == 0x30) then .error (.eraseConfirm c6)
      else .ok (.sectorErase h1 h2 h3 c4.a.high c5.a.high c6.a.sector, rest)
  | _ => .error .truncated

/-- The last cycle of a byte program (R95). -/
def decodeProgram (h1 h2 h3 : HighBits) : List Dcw → Except DecodeReject (Instr × List Dcw)
  | c4 :: rest =>
      if c4.wr then .ok (.byteProgram h1 h2 h3 c4.a c4.v, rest) else .error (.programCycle c4)
  | [] => .error .truncated

/-- The cycles after the first unlock cycle: the third cycle's byte selects the command (R96). -/
def decodeUnlocked (h1 : HighBits) : List Dcw → Except DecodeReject (Instr × List Dcw)
  | c2 :: c3 :: rest =>
      if !c2.isCommand CMD_ADDR2 0x55 then .error (.secondUnlock c2)
      else if c3.isCommand CMD_ADDR1 0x90 then .ok (.swidEntry h1 c2.a.high c3.a.high, rest)
      else if c3.isCommand CMD_ADDR1 0x80 then decodeErase h1 c2.a.high c3.a.high rest
      else if c3.isCommand CMD_ADDR1 0xA0 then decodeProgram h1 c2.a.high c3.a.high rest
      else .error (.commandByte c3)
  | _ => .error .truncated

/-- The command at the head of a stream of device cycles, with the rest of the stream (R95, R96). Total on
every stream; what is no command is rejected by name (R97). R96 opens a multi-cycle command in READ or ID; here the
mode is looked at for reads only, and the device decides at each cycle whether a write is accepted (R122): the model's
choice, log 37. -/
def decode (m : DevMode) : List Dcw → Except DecodeReject (Instr × List Dcw)
  | [] => .error .noCycle
  | c1 :: rest =>
      if !c1.wr then (decodeRead m c1.a c1.v).map (·, rest)
      else if c1.isCommand CMD_ADDR1 0xAA then decodeUnlocked c1.a.high rest
      else if c1.isCommand CMD_ADDR1 0xF0 then .ok (.swidExit c1.a.high, rest)
      else .error (.firstWrite c1)

/-- The command at the head of a stream of 28-bit words. -/
def decodeWords (m : DevMode) (ws : List CycleWord) : Except DecodeReject (Instr × List Dcw) :=
  decode m (ws.map Dcw.ofBits)

/-! ## The encoder -/

/-- The cycles of a device command (R95). An engine operation has none (R100). -/
def Instr.cycles : Instr → List Dcw
  | .readArray a v => [⟨false, a, v⟩]
  | .swidEntry h1 h2 h3 =>
      [.command h1 CMD_ADDR1 0xAA, .command h2 CMD_ADDR2 0x55, .command h3 CMD_ADDR1 0x90]
  | .swidRead a v => [⟨false, a, v⟩]
  | .swidExit h1 => [.command h1 CMD_ADDR1 0xF0]
  | .sectorErase h1 h2 h3 h4 h5 sec =>
      [.command h1 CMD_ADDR1 0xAA, .command h2 CMD_ADDR2 0x55, .command h3 CMD_ADDR1 0x80,
        .command h4 CMD_ADDR1 0xAA, .command h5 CMD_ADDR2 0x55, ⟨true, DevAddr.ofSector sec 0, 0x30⟩]
  | .byteProgram h1 h2 h3 a d =>
      [.command h1 CMD_ADDR1 0xAA, .command h2 CMD_ADDR2 0x55, .command h3 CMD_ADDR1 0xA0, ⟨true, a, d⟩]
  | .statusRead a v => [⟨false, a, v⟩]
  | .poll _ _ _ | .cal _ | .waitProgram _ _ | .waitErase _ | .csEnter | .csExit | .detect _ _ | .idDecode _ _
  | .eraseSector _ _ | .programByte _ _ _ | .plan _ _ | .overlap _ _ _ | .compareBlock _ | .flash | .verify
  | .run | .halt => []

/-- The words of an instruction, first cycle first (R93). -/
def encode (i : Instr) : List CycleWord := i.cycles.map Dcw.bits

/-- The modes in which the device accepts the whole command (the `state` column of R95). -/
def Instr.acceptedIn (i : Instr) (m : DevMode) : Bool :=
  match i, m with
  | .readArray _ _, .read => true
  | .swidEntry _ _ _, .read => true
  | .swidEntry _ _ _, .id _ => true
  | .swidRead _ _, .id _ => true
  | .swidExit _, .id _ => true
  | .sectorErase _ _ _ _ _ _, .read => true
  | .byteProgram _ _ _ _ _, .read => true
  | .statusRead _ _, .ebusy _ => true
  | .statusRead _ _, .pbusy _ _ => true
  | _, _ => false

/-- A device command, in contrast to an engine operation (R90). -/
def Instr.isCommand (i : Instr) : Bool := !i.cycles.isEmpty

/-! ## The numbers of spec/opcode_table.json -/

/-- The words of the number `w` of `n` concatenated device cycles, first cycle in the most significant bits
(R93): bit 0 is the least significant bit of the last cycle. -/
def splitWords : Nat → Nat → List CycleWord
  | 0, _ => []
  | n + 1, w => BitVec.ofNat 28 (w / 2 ^ (28 * n)) :: splitWords n (w % 2 ^ (28 * n))

/-- The number of words, the inverse of `splitWords`. -/
def joinWords : List CycleWord → Nat
  | [] => 0
  | c :: cs => c.toNat * 2 ^ (28 * cs.length) + joinWords cs

/-- The 28-bit words of a table row of `nbits` bits: `nbits` counts whole bytes, so its last few bits may be
padding above the 28 × n bits of R93. -/
def tableWords (nbits w : Nat) : List CycleWord := splitWords (nbits / 28) w

/-- The instruction the decoder reads from a table row's number, the device being in READ mode as at launch
(R290). A read's number is READ_ARRAY there: the same number is SWID_READ in ID mode and STATUS_READ while busy
(R101), which `decodeWords` says of those modes. -/
def decodeTableWord (nbits w : Nat) : Option Instr :=
  if w < 2 ^ (28 * (nbits / 28)) then
    match decodeWords .read (tableWords nbits w) with
    | .ok (i, []) => some i
    | _ => none
  else none

end Sys2Proof
end

