-- ==== Sys2Proof/Machine/State.lean ====
section
/-! DEFINITION. The state of the machine (R20 to R46): plain data. -/

namespace Sys2Proof.Machine

/-! ## The device (R21 to R28) -/

/-- Device state. `DEV.base`, `DEV.esec`, `DEV.paddr`, `DEV.pdata` and `DEV.idStale` are carried by the mode. -/
structure Dev where
  /-- The device command state (R21). -/
  mode : DevMode
  /-- DEV.array (R25): the bytes that differ from what an unlisted address reads as, addresses rising. -/
  array : List Host.Cell
  /-- DEV.fault, sticky (R27). -/
  fault : Bool
  deriving DecidableEq, Repr

/-! ## The engine's registers (R31) -/

/-- What ID_DECODE recognises (R183). -/
inductive IdResult where
  | known (p : Part)
  /-- NONE. -/
  | none
  deriving DecidableEq, Repr

/-- The engine registers that a procedure writes (R31), and the locals of the procedures (R37, R160, R162, R182,
R213, R215). `none` is the spec's own state "unset": the register holds no value, and reading it raises
UnsetRegister (R32). -/
structure Regs where
  /-- Calibrated timeout. -/
  T : Option Count
  /-- Command-window segment. -/
  S : Option Seg
  /-- "Another ROM may be overlapped". -/
  OVL : Option Bool
  /-- Vendor byte read in ID mode. -/
  VID : Option Byte
  /-- Device byte read in ID mode. -/
  DID : Option Byte
  /-- Recognised part. -/
  PARTF : Option IdResult
  /-- Workflow result; the only signed value (R36). -/
  CNT : Option Int
  /-- Verify result. -/
  VOK : Option Bool
  /-- Result of the last POLL. -/
  PR : Option Bool
  /-- Block index. -/
  i : Option Nat
  /-- Byte index within a block. -/
  b : Option Nat
  /-- Erase outer-loop count. -/
  j : Option Nat
  /-- Poll try count. -/
  n : Option Nat
  /-- Calibration count. -/
  N : Option Nat
  /-- Sampled tick value. -/
  t0 : Option Byte
  /-- Sampled tick value. -/
  t1 : Option Byte
  /-- Calibration poll value. -/
  probe : Option Byte
  /-- Overlap scan segment. -/
  curr : Option Nat
  /-- HOST's answer to the prompt. -/
  ANS : Option Byte
  /-- COMPARE_BLOCK's result (R100). -/
  equal : Option Bool
  /-- CAL's `p` (R162). -/
  calP : Option Nat
  /-- POLL's `n_max` (R160). -/
  nMax : Option Nat
  /-- POLL's `r` (R160). -/
  r : Option Byte
  /-- PLAN's `dest` (R213). -/
  dest : Option Nat
  /-- PLAN's `seq` (R213). -/
  seq : Option Nat
  /-- OVERLAP's `b0` (R215). -/
  b0 : Option Byte
  /-- OVERLAP's `b1` (R215). -/
  b1 : Option Byte
  /-- The count of DETECT's `repeat` (R182). -/
  rep : Option Nat
  deriving DecidableEq, Repr

/-- Every register unset (R46). -/
def Regs.unset : Regs :=
  { T := none, S := none, OVL := none, VID := none, DID := none, PARTF := none, CNT := none, VOK := none,
    PR := none, i := none, b := none, j := none, n := none, N := none, t0 := none, t1 := none, probe := none,
    curr := none, ANS := none, equal := none, calP := none, nMax := none, r := none, dest := none, seq := none,
    b0 := none, b1 := none, rep := none }

/-- The name of a register, recorded with UnsetRegister (R261). -/
inductive RegName where
  | T | S | OVL | VID | DID | PARTF | CNT | VOK | PR | i | b | j | n | N | t0 | t1 | probe | curr | ANS
  | equal | calP | nMax | r | dest | seq | b0 | b1 | rep | D | L
  deriving DecidableEq, Repr

/-! ## Errors, model faults, output (R260, R261, R268) -/

/-- The error taxonomy (R260). -/
inductive ErrCause where
  | invalidArguments | imageRejected | deviceNotRecognized | userAborted | eraseTimeout | programTimeout
  | verifyFailed
  deriving DecidableEq, Repr

/-- The spec's model faults with what is recorded with each (R261). They are TAKEN: recorded in `State.faults`
by a step that answers a next state; the machine is quiescent from then on (R263). -/
inductive FaultKind where
  /-- 16. The cycle is the last entry of HIST. -/
  | protocolViolation
  /-- 17. -/
  | addressOutOfWindow (p : Nat)
  /-- 18. -/
  | commandOutsideDevice (p : PhysAddr)
  /-- 19. -/
  | unsetRegister (name : RegName)
  /-- 20. -/
  | criticalSectionViolation
  deriving DecidableEq, Repr

/-- Message tokens (R268). -/
inductive Msg where
  | padded
  | unrecognized (S D : Seg)
  | overlapWarning
  | summary (part : IdResult) (D : Seg) (L : Nat)
  | prompt | upToDate | corrupt | complete | verifyFailed
  deriving DecidableEq, Repr

/-- The exit status 0 or 1 (R41). -/
inductive ExitCode where
  | zero | one
  deriving DecidableEq, Repr

/-- One frame of EPC: a procedure with its operands, and the index of the statement being executed (R38). -/
structure Frame where
  op : Instr
  idx : Nat
  deriving DecidableEq, Repr

/-! ## The whole state (R20) -/

structure State where
  /-- The configuration, fixed for a run (R45). -/
  cfg : Config
  /-- The device. -/
  dev : Dev
  /-- Destination segment, a launch input (R31, R35). -/
  D : Seg
  /-- IMG, the blocks to program, a launch input (R39). -/
  img : List (List Byte)
  /-- ORIG, the original file length, a launch input (R31). -/
  orig : Nat
  /-- The engine registers that procedures write (R31). -/
  regs : Regs
  /-- The host's maskable-interrupt enable (R29). -/
  IF : Bool
  /-- The tick byte (R43). -/
  tick : Byte
  /-- HIST, oldest entry first (R66). -/
  hist : List BusEvent
  /-- EPC, top frame first (R38). -/
  epc : List Frame
  /-- MSG, oldest token first (R41). -/
  msg : List Msg
  /-- EXIT (R41). -/
  exit : Option ExitCode
  /-- HALTED (R41). -/
  halted : Bool
  /-- ERR (R42). -/
  err : Option ErrCause
  /-- FAULTS, a set: no repeats (R42). -/
  faults : List FaultKind
  /-- The 1 MiB scratch buffer of MEMCFG = TEST (R70): the bytes that are not 0xAA, addresses rising. -/
  ram : List Host.Cell
  /-- The model's own: the moves the agents take next, first to come first (R267). Log 3. -/
  sched : List Move
  /-- The model's own: HOST's pending keystrokes (R227). Log 8. -/
  keys : List Byte
  /-- The model's own: how many free values have been taken (R11). Log 9. -/
  draws : Nat
  /-- The model's own: device cycle words that wait to be issued when no procedure runs. Log 10. -/
  queue : List CycleWord
  deriving DecidableEq, Repr

/-- Why the machine stops. -/
inductive Fault where
  /-- Raised by `step` when a model fault is recorded: "no agent takes another step" (R263). Safe. -/
  | quiescent (f : FaultKind)
  /-- Raised by a procedure whose frame's index is no statement of it; no run from launch reaches one (R38).
  Safe. -/
  | noSuchStatement
  /-- Raised by COMPARE_BLOCK, FLASH and VERIFY on a byte that IMG does not have; no launched image lacks one
  (R39, R211). Safe. -/
  | noImageByte
  deriving DecidableEq, Repr

/-- Why an instruction has no meaning. -/
inductive Refusal where
  /-- An instruction without a meaning; none is left. -/
  | notModelled (mnemonic : String)
  /-- Raised by a device command whose device address no host address reaches under DEV_MAP: no host cycle
  becomes that device cycle (R92). Safe. -/
  | unreachableDeviceAddress (a : DevAddr)
  /-- Raised by the fetch of a device command with an address bit at or above AW set; a device cycle has those
  bits 0 (R92). Safe. -/
  | beyondPart
  deriving DecidableEq, Repr

/-! ## Launch (R46, R290, R291, R292) -/

/-- The state at launch for a configuration, the array, the launch inputs and the tick's value (R46). Under
MEMCFG = TEST the array is not a parameter: every byte is 0xAA, what an unlisted byte reads as (R46, R70). -/
def State.launch (cfg : Config) (array0 : List Host.Cell) (D : Seg) (img : List (List Byte)) (orig : Nat)
    (tick : Byte) : State :=
  { cfg := cfg, dev := { mode := .read, array := match cfg.memcfg with | .real => array0 | .test => [], fault := false },
    D := D, img := img, orig := orig,
    regs := Regs.unset, IF := true, tick := tick, hist := [], epc := [⟨.run, 0⟩], msg := [], exit := none,
    halted := false, err := none, faults := [], ram := [], sched := [], keys := [], draws := 0, queue := [] }

/-- The configuration MAP_C of 95_test_vectors.md. -/
def mapC : Config :=
  { part := .SST39SF010, devMap := [⟨0xC0, 32, 0⟩], tickAddr := 0x0046C, idStale := 1, idReads := 3,
    pollZero := .none, memcfg := .real, calSentinel := 0, testVendor := 0xBF, testDevice := 0xB5 }

/-- The machine right after reset: the launch of a run (R46, R290, R291). The OPEN parameters and the launch
inputs are those log entries 2, 4, 5 and 6 name. -/
def State.reset : State :=
  State.launch mapC [] 0xC800 [List.replicate SECTOR 0x00] SECTOR 0

end Sys2Proof.Machine
end

