-- ==== Sys2Proof/Machine/Operands.lean ====
section
/-! DEFINITION. Operand forms: segment and offset to physical address (R9, R61, R62), the device mapping
(R63, R92), image bytes and block bases (R217), and operands that are registers. -/

namespace Sys2Proof

/-! ## The device mapping -/

/-- The device sector that a 4 KiB host block reaches, if any: the first region that holds the block (R63). -/
def Config.sectorOf? (c : Config) (block : Nat) : Option Sector :=
  (c.devMap.find? fun r => r.hostBlock ≤ block && block < r.hostBlock + r.count).map
    fun r => BitVec.ofNat 7 (r.sector + (block - r.hostBlock))

/-- DEV_MAP (R63): whole 4 KiB blocks, the byte offset passed through (M2). -/
def Config.devAddr? (c : Config) (p : PhysAddr) : Option DevAddr :=
  (c.sectorOf? (p.toNat / 0x1000)).map fun sec => DevAddr.ofSector sec (p.extractLsb' 0 12)

/-- The lowest host address that DEV_MAP sends to a device address: where the host issues a device cycle that
is given as a word (R92). DEV_MAP need not be injective, and the device sees only the device address. Log 10. -/
def Config.hostAddr? (c : Config) (a : DevAddr) : Option PhysAddr :=
  ((List.range 0x100).find? fun block => c.sectorOf? block == some a.sector).map
    fun block => (BitVec.ofNat 8 block ++ a.boff : BitVec 20)

/-- The vendor byte the device answers with (R26). -/
def Config.vendorId (c : Config) : Byte :=
  match c.memcfg with
  | .real => VENDOR_ID
  | .test => c.testVendor

/-- The device byte the device answers with (R26). -/
def Config.deviceId (c : Config) : Byte :=
  match c.memcfg with
  | .real => c.part.code
  | .test => c.testDevice

namespace Machine

/-! ## Addresses -/

/-- `seg:off` is `(seg << 4) + off` on naturals (R9, R61). -/
def physical (seg : Seg) (off : Nat) : Nat := seg.toNat * 16 + off

/-- The 20-bit address of a natural below 0x100000; none at or above it, and no wrap (R62). -/
def toPhys? (p : Nat) : Option PhysAddr :=
  if p < PHYS_SIZE then some (BitVec.ofNat 20 p) else none

/-- `S:5555` (R10). -/
def unlock1 (S : Seg) : Nat := physical S CMD_ADDR1.toNat

/-- `S:2AAA` (R10). -/
def unlock2 (S : Seg) : Nat := physical S CMD_ADDR2.toNat

/-- NBLK, the number of image blocks (R31). -/
def State.NBLK (s : State) : Nat := s.img.length

/-- L = NBLK × 4096, the programmed length in bytes (R31). -/
def State.L (s : State) : Nat := s.NBLK * SECTOR

/-- `pbase(i) = (D << 4) + i × 4096` (R217). -/
def State.pbase (s : State) (i : Nat) : Nat := physical s.D (i * SECTOR)

/-- `IMG[i][b]` (R39). -/
def State.imgByte? (s : State) (i b : Nat) : Option Byte := s.img[i]? >>= fun blk => blk[b]?

/-! ## Operands that are registers -/

/-- The value of an operand, none where it is a register that holds no value (R262). -/
def operand? {α : Type} (o : Operand α) (register : Option α) : Option α :=
  match o with
  | .reg => register
  | .imm v => some v

end Machine

end Sys2Proof
end

