-- ==== Sys2Proof/Machine/Flags.lean ====
section
/-! DEFINITION. The results a statement computes: counts, conditions, the recognised part, the plan and the
program result. -/

namespace Sys2Proof.Machine

/-- `sat16(n) = min(n, 0xFFFF)` (R8). -/
def sat16 (n : Nat) : Nat := min n 0xFFFF

/-- The number of reads POLL makes at most (R160): k, and for k = 0 what POLL_ZERO says. -/
def pollBound (c : Config) (k : Count) : Nat :=
  if k = 0 then (match c.pollZero with | .none => 0 | .wrap => 65536) else k.toNat

/-- "A ROM signature is present here", kept exactly as the source gives it (R215, R216). -/
def romSignature (b0 b1 : Byte) : Bool := b0 == 0x55 || b1 == 0xFF

/-- The overlap scan skips segments of the destination range: `D ≤ curr < D + L / 16` (R215). -/
def inDestination (D : Seg) (L curr : Nat) : Bool := D.toNat ≤ curr && curr < D.toNat + L / 16

/-- Only 'y' and 'Y' continue (R227). -/
def isYes (key : Byte) : Bool := key == 0x79 || key == 0x59

/-- Does the pair of identification bytes name this part (R2, R183)? -/
def identifies (p : Part) (VID DID : Byte) : Bool := VID == VENDOR_ID && DID == p.code

/-- PROG(old, v), what a byte holds after a program (R141). -/
def prog (old v : Byte) : Byte := if old = 0xFF then v else old &&& v

/-! ## PLAN's arithmetic (R213) -/

/-- Step 2: floor to 32 KiB. -/
def planFloor (dest : Nat) : Nat := dest - dest % WINDOW

/-- Step 3: the next window up lies wholly inside the destination. -/
def planRoundsUp (dest seq L : Nat) : Bool := decide (seq < dest) && decide (seq + 0x10000 ≤ dest + L)

/-- Step 4: the segment of a physical address. A legal D gives a 16-bit result (R214); above it the rules state
none and the value is free. Log 12. -/
def planSegment (seq : Nat) : Seg :=
  if seq < PHYS_SIZE then BitVec.ofNat 16 (seq / 16) else Config.segmentAbove seq

/-! ## Codes of errors and faults (R260, R261) -/

/-- The cause code of an error (R260). -/
def ErrCause.code : ErrCause → Nat
  | .invalidArguments => 1
  | .imageRejected => 2
  | .deviceNotRecognized => 3
  | .userAborted => 4
  | .eraseTimeout => 5
  | .programTimeout => 6
  | .verifyFailed => 7

/-- The code of a model fault (R261). -/
def FaultKind.code : FaultKind → Nat
  | .protocolViolation => 16
  | .addressOutOfWindow _ => 17
  | .commandOutsideDevice _ => 18
  | .unsetRegister _ => 19
  | .criticalSectionViolation => 20

end Sys2Proof.Machine
end

