-- ==== Sys2Proof/Machine/Ops.lean ====
section
/-! DEFINITION. The shared operations: byte memories, the bus history, recording a fault (the one way an
exception is taken, R261, R263; nothing returns from one, R270), the device state machine, bus cycles,
completion, EPC, and the forms of a statement. -/

namespace Sys2Proof.Machine

/-! ## Byte memories

A list of (address, byte) cells, addresses strictly rising, no byte equal to what an unlisted address reads as. -/

/-- What an unlisted address of a byte memory reads as: 0xAA under MEMCFG = TEST (R70); under REAL the array's
bytes at launch are unconstrained and 0xFF is the model's choice, log 4. -/
def blankByte : MemCfg → Byte
  | .real => 0xFF
  | .test => 0xAA

/-- The byte at an address. -/
def Memory.read (blank : Byte) : List Host.Cell → Nat → Byte
  | [], _ => blank
  | (k, v) :: rest, a => if a = k then v else Memory.read blank rest a

/-- `count` bytes from `lo` on, all set to `v`. -/
def Memory.fill (blank : Byte) (m : List Host.Cell) (lo count : Nat) (v : Byte) : List Host.Cell :=
  m.filter (fun c => decide (c.1 < lo)) ++
    (if v = blank then [] else (List.range' lo count).map fun a => (a, v)) ++
    m.filter (fun c => decide (lo + count ≤ c.1))

/-- One byte set to `v`. -/
def Memory.write (blank : Byte) (m : List Host.Cell) (a : Nat) (v : Byte) : List Host.Cell :=
  Memory.fill blank m a 1 v

/-- Each address of a list set to its own byte. -/
def Memory.writeEach (blank : Byte) (f : Nat → Byte) (m : List Host.Cell) (as : List Nat) : List Host.Cell :=
  as.foldl (fun m a => Memory.write blank m a (f a)) m

/-- The canonical form of a byte memory of `size` bytes. -/
abbrev Memory.wf (blank : Byte) (size : Nat) (m : List Host.Cell) : Prop :=
  m.Pairwise (fun c d => c.1 < d.1) ∧ ∀ c ∈ m, c.2 ≠ blank ∧ c.1 < size

/-! ## History, draws, faults -/

/-- Append an entry to HIST (R66). -/
def State.log (s : State) (e : BusEvent) : State := { s with hist := s.hist ++ [e] }

/-- `draw()` (R11): the next free value. -/
def State.fresh (s : State) : Byte := Config.draw s.draws

/-- One more free value is taken. -/
def State.drawn (s : State) : State := { s with draws := s.draws + 1 }

/-- Record a fault: FAULTS is a sticky set; EPC stays at the faulting statement (R261, R263). -/
def State.raise (s : State) (f : FaultKind) : State :=
  { s with faults := if f ∈ s.faults then s.faults else s.faults ++ [f] }

/-! ## The device (40_device_commands.md) -/

/-- `dev.array[a]` (R25). -/
def State.arrayByte (s : State) (a : DevAddr) : Byte :=
  Memory.read (blankByte s.cfg.memcfg) s.dev.array a.toNat

/-- The byte the RAM of MEMCFG = TEST holds (R70). -/
def State.ramByte (s : State) (p : PhysAddr) : Byte := Memory.read (blankByte .test) s.ram p.toNat

/-- What the device does with a read. -/
inductive ReadAnswer where
  /-- Accepted, with this byte. -/
  | byte (v : Byte)
  /-- Accepted, with a draw; the device is then in this mode. -/
  | draw (m : DevMode)
  /-- Not accepted (R122, R139). -/
  | unaccepted
  deriving DecidableEq, Repr

/-- The device's answer to a read of device address `a` (R122, R123, R127, R137, R142). -/
def State.readAnswer (s : State) (a : DevAddr) : ReadAnswer :=
  match s.dev.mode with
  | .read => .byte (s.arrayByte a)
  | .id (k + 1) => .draw (.id k)
  | .id 0 =>
      if a.boff = 0 then .byte s.cfg.vendorId
      else if a.boff = 1 then .byte s.cfg.deviceId
      else .draw (.id 0)
  | .ebusy sec => .draw (.ebusy sec)
  | .pbusy pa pd => .draw (.pbusy pa pd)
  | .indet => .draw .indet
  | .u1 _ | .u2 _ | .e1 | .e2 | .e3 | .p1 => .unaccepted

/-- The mode after a write of `v` at device address `a`, or none if the write is not accepted (R122: R124, R125,
R126, R128 to R132, R134, R135, R142). -/
def Dev.writeMode (c : Config) (m : DevMode) (a : DevAddr) (v : Byte) : Option DevMode :=
  match m with
  | .read => if a.offset = CMD_ADDR1 ∧ v = 0xAA then some (.u1 .read) else none
  | .u1 base => if a.offset = CMD_ADDR2 ∧ v = 0x55 then some (.u2 base) else none
  | .u2 base =>
      if a.offset = CMD_ADDR1 ∧ v = 0x90 then some (.id c.idStale)
      else if a.offset = CMD_ADDR1 ∧ v = 0x80 ∧ base = .read then some .e1
      else if a.offset = CMD_ADDR1 ∧ v = 0xA0 ∧ base = .read then some .p1
      else none
  | .id _ =>
      if a.offset = CMD_ADDR1 ∧ v = 0xF0 then some .read
      else if a.offset = CMD_ADDR1 ∧ v = 0xAA then some (.u1 .id)
      else none
  | .e1 => if a.offset = CMD_ADDR1 ∧ v = 0xAA then some .e2 else none
  | .e2 => if a.offset = CMD_ADDR2 ∧ v = 0x55 then some .e3 else none
  | .e3 => if v = 0x30 ∧ a.boff = 0 then some (.ebusy a.sector) else none
  | .p1 => some (.pbusy a v)
  | .ebusy _ => none
  | .pbusy _ _ => none
  | .indet => some .indet

/-- The device goes to a mode. -/
def State.setMode (s : State) (m : DevMode) : State := { s with dev := { s.dev with mode := m } }

/-- An unaccepted cycle: the device enters INDET, DEV.fault is set, ProtocolViolation is recorded (R139). -/
def State.violate (s : State) : State :=
  { s with dev := { s.dev with mode := .indet, fault := true } }.raise .protocolViolation

/-! ## Bus cycles (R11, R64 to R67, R70) -/

/-- What a bus cycle gives: a byte and the state after it, or the state in which its fault is recorded. -/
inductive BusResult where
  | ok (v : Byte) (s : State)
  | stop (s : State)
  deriving DecidableEq, Repr

/-- The byte of an address outside DEV_MAP's domain: the tick, OTHER_MEM, or the RAM of TEST (R64, R70). -/
def State.otherByte (s : State) (p : PhysAddr) : Byte :=
  if p = s.cfg.tickAddr then s.tick
  else match s.cfg.memcfg with
    | .real => Config.otherMem s.hist p
    | .test => s.ramByte p

/-- A read of the device: `DevRead` (R120). -/
def State.devRead (s : State) (ag : Agent) (p : PhysAddr) (a : DevAddr) : BusResult :=
  match s.readAnswer a with
  | .byte v => .ok v (s.log ⟨ag, .R, p, v⟩)
  | .draw m => .ok s.fresh ((s.setMode m).drawn.log ⟨ag, .R, p, s.fresh⟩)
  | .unaccepted => .stop (s.drawn.log ⟨ag, .R, p, s.fresh⟩).violate

/-- A write to the device: `DevWrite` (R120). -/
def State.devWrite (s : State) (ag : Agent) (p : PhysAddr) (a : DevAddr) (v : Byte) : BusResult :=
  match Dev.writeMode s.cfg s.dev.mode a v with
  | some m => .ok v ((s.setMode m).log ⟨ag, .W, p, v⟩)
  | none => .stop (s.log ⟨ag, .W, p, v⟩).violate

/-- `MemRead(p, 1)` (R11). -/
def State.busRead (s : State) (ag : Agent) (p : Nat) : BusResult :=
  match toPhys? p with
  | none => .stop (s.raise (.addressOutOfWindow p))
  | some q =>
    match s.cfg.devAddr? q with
    | some a => s.devRead ag q a
    | none => .ok (s.otherByte q) (s.log ⟨ag, .R, q, s.otherByte q⟩)

/-- `MemWrite(p, 1, v)` (R11). -/
def State.busWrite (s : State) (ag : Agent) (p : Nat) (v : Byte) : BusResult :=
  match toPhys? p with
  | none => .stop (s.raise (.addressOutOfWindow p))
  | some q =>
    match s.cfg.devAddr? q with
    | some a => s.devWrite ag q a v
    | none =>
      match s.cfg.memcfg with
      | .real => .stop (s.raise (.commandOutsideDevice q))
      | .test =>
          .ok v ({ s with ram := Memory.write (blankByte .test) s.ram q.toNat v }.log ⟨ag, .W, q, v⟩)

/-! ## Steps of the other agents -/

/-- The device's spontaneous step: ERASE_COMPLETE in EBUSY (R138), PROGRAM_COMPLETE in PBUSY (R140); in every
other mode none is enabled and nothing changes. -/
def State.complete (s : State) : State :=
  match s.dev.mode with
  | .ebusy sec =>
      { s with dev := { s.dev with
          array := Memory.fill (blankByte s.cfg.memcfg) s.dev.array (sec.toNat * SECTOR) SECTOR 0xFF,
          mode := .read } }.log ⟨.dev, .C, BitVec.ofNat 20 (sec.toNat * SECTOR), 0⟩
  | .pbusy pa pd =>
      { s with dev := { s.dev with
          array := Memory.write (blankByte s.cfg.memcfg) s.dev.array pa.toNat (prog (s.arrayByte pa) pd),
          mode := .read } }.log ⟨.dev, .C, pa.setWidth 20, 0⟩
  | .read | .u1 _ | .u2 _ | .id _ | .e1 | .e2 | .e3 | .p1 | .indet => s

/-- TICK's step (R43). -/
def State.tickStep (s : State) : State := { s with tick := s.tick + 1 }

/-! ## EPC (R38) -/

/-- The index of the statement being executed. -/
def State.stmt (s : State) : Nat :=
  match s.epc with
  | f :: _ => f.idx
  | [] => 0

/-- The top frame moves to statement `k` of its procedure. -/
def State.goto (s : State) (k : Nat) : State :=
  { s with epc := match s.epc with
      | f :: rest => { f with idx := k } :: rest
      | [] => [] }

/-- A return, and the advance past a procedure's last statement, pop the frame. The registers stay: R37 leaves the
locals unspecified after the return and no rule reads them; that they keep the last values written is the model's
choice, log 34. -/
def State.ret (s : State) : State := { s with epc := s.epc.tail }

/-- A call: the caller moves on to statement `k` and a frame of the callee is pushed. -/
def State.call (s : State) (i : Instr) (k : Nat) : State :=
  { s with epc := ⟨i, 0⟩ :: (s.goto k).epc }

/-! ## Registers and output -/

/-- Write engine registers. -/
def State.setRegs (s : State) (f : Regs → Regs) : State := { s with regs := f s.regs }

/-- Write the interrupt enable (R180, R181). -/
def State.setIF (s : State) (b : Bool) : State := { s with IF := b }

/-- Append a message token (R41, R268). -/
def State.say (s : State) (m : Msg) : State := { s with msg := s.msg ++ [m] }

/-- Record an error (R42, R260). -/
def State.setErr (s : State) (e : ErrCause) : State := { s with err := some e }

/-- `EXIT <- c; stop`: EPC does not advance (R38, R41, R226). -/
def State.stop (s : State) (c : ExitCode) : State := { s with exit := some c }

/-! ## The forms of a statement -/

/-- The outcome of a statement. -/
abbrev Out := Host.Outcome State Fault Refusal

/-- A statement that reads a register or an operand: UnsetRegister, and no other effect, if it holds no value
(R262). Where a statement reads several, one `need` stands inside the other and the outermost unset one is recorded;
the rules give no order among them, and the order of the `need`s is the model's choice, log 33. -/
def need {α : Type} (value : Option α) (name : RegName) (s : State) (k : α → Out) : Out :=
  match value with
  | some x => k x
  | none => .next (s.raise (.unsetRegister name))

/-- A statement that makes one read of the engine: `k` finishes it. A fault leaves EPC and the registers (R263). -/
def engRead (p : Nat) (s : State) (k : Byte → State → State) : Out :=
  match s.busRead .eng p with
  | .ok v s' => .next (k v s')
  | .stop s' => .next s'

/-- A statement that makes one write of the engine: `k` finishes it. A fault leaves EPC (R263). -/
def engWrite (p : Nat) (v : Byte) (s : State) (k : State → State) : Out :=
  match s.busWrite .eng p v with
  | .ok _ s' => .next (k s')
  | .stop s' => .next s'

/-- A statement that makes the first write of ERASE_SECTOR or PROGRAM_BYTE: CriticalSectionViolation if IF = 1,
checked after the operands and before the address (R186, R264). -/
def engFirstWrite (p : Nat) (v : Byte) (s : State) (k : State → State) : Out :=
  if s.IF then .next (s.raise .criticalSectionViolation) else engWrite p v s k

/-- A statement that reads an image byte. -/
def needImage (i b : Nat) (s : State) (k : Byte → Out) : Out :=
  match s.imgByte? i b with
  | some v => k v
  | none => .fault .noImageByte

/-- The statement a device command is at: the cycle of that index, issued by the host at the lowest host address
that reaches its device address (R92, R93, R120). After the last cycle the command is over. -/
def issueCycle (i : Instr) (s : State) : Out :=
  match i.cycles[s.stmt]? with
  | none => .fault .noSuchStatement
  | some c =>
    match s.cfg.hostAddr? c.a with
    | none => .refused (.unreachableDeviceAddress c.a)
    | some p =>
      let after (t : State) : State := if s.stmt + 1 < i.cycles.length then t.goto (s.stmt + 1) else t.ret
      if c.wr then engWrite p.toNat c.v s after else engRead p.toNat s fun _ t => after t

end Sys2Proof.Machine
end

