-- ==== Sys2Proof/Machine/Control.lean ====
section
/-! DEFINITION. The top-level sequence (43_scheduler_workflow.md, section 4): RUN and HALT. -/

namespace Sys2Proof.Machine

/-- `HOST.key()` (R227): the next pending keystroke, or a draw when none is listed. Log 8. -/
def State.key (s : State) : Byte :=
  match s.keys with
  | k :: _ => k
  | [] => s.fresh

/-- The state after the keystroke is taken. -/
def State.keyTaken (s : State) : State :=
  match s.keys with
  | _ :: rest => { s with keys := rest }
  | [] => s.drawn

/-- RUN (R226), the process controller; the order of its calls is R225. A call moves the caller on, but the two calls
of HALT, which never returns (R229), leave RUN's frame at the call: the model's choice, log 15. -/
def execRun (s : State) : Out :=
  match s.stmt with
  -- CAL(D)
  | 0 => .next (s.call (.cal .reg) 1)
  -- PLAN(D, L)
  | 1 => .next (s.call (.plan .reg .reg) 2)
  -- OVERLAP(S, D, L)
  | 2 => .next (s.call (.overlap .reg .reg .reg) 3)
  -- DETECT(S, D)
  | 3 => .next (s.call (.detect .reg .reg) 4)
  -- ID_DECODE(VID, DID)
  | 4 => .next (s.call (.idDecode .reg .reg) 5)
  -- if PARTF = NONE
  | 5 => need s.regs.PARTF .PARTF s fun x => .next (s.goto (if x = .none then 6 else 9))
  -- MSG += M_UNRECOGNIZED(S, D)
  | 6 => need s.regs.S .S s fun S => .next ((s.say (.unrecognized S s.D)).goto 7)
  -- ERR <- DeviceNotRecognized
  | 7 => .next ((s.setErr .deviceNotRecognized).goto 8)
  -- EXIT <- 1; stop
  | 8 => .next (s.stop .one)
  -- if OVL = 1
  | 9 => need s.regs.OVL .OVL s fun o => .next (s.goto (if o then 10 else 11))
  -- MSG += M_OVERLAP_WARNING
  | 10 => .next ((s.say .overlapWarning).goto 11)
  -- MSG += M_SUMMARY(PARTF, D, L)
  | 11 => need s.regs.PARTF .PARTF s fun x => .next ((s.say (.summary x s.D s.L)).goto 12)
  -- MSG += M_PROMPT
  | 12 => .next ((s.say .prompt).goto 13)
  -- ANS <- HOST.key()
  | 13 => .next ((s.keyTaken.setRegs fun g => { g with ANS := some s.key }).goto 14)
  -- if ANS is neither 'y' nor 'Y'
  | 14 => need s.regs.ANS .ANS s fun a => .next (s.goto (if isYes a then 17 else 15))
  -- ERR <- UserAborted
  | 15 => .next ((s.setErr .userAborted).goto 16)
  -- EXIT <- 1; stop
  | 16 => .next (s.stop .one)
  -- FLASH()
  | 17 => .next (s.call .flash 18)
  -- if CNT = 0
  | 18 => need s.regs.CNT .CNT s fun c => .next (s.goto (if c = 0 then 19 else 21))
  -- MSG += M_UP_TO_DATE
  | 19 => .next ((s.say .upToDate).goto 20)
  -- EXIT <- 0; stop
  | 20 => .next (s.stop .zero)
  -- if CNT = -1
  | 21 => need s.regs.CNT .CNT s fun c => .next (s.goto (if c = -1 then 22 else 24))
  -- MSG += M_CORRUPT
  | 22 => .next ((s.say .corrupt).goto 23)
  -- HALT, which never returns
  | 23 => .next (s.call .halt 23)
  -- VERIFY()
  | 24 => .next (s.call .verify 25)
  -- if VOK = 1
  | 25 => need s.regs.VOK .VOK s fun v => .next (s.goto (if v then 26 else 27))
  -- MSG += M_COMPLETE
  | 26 => .next ((s.say .complete).goto 29)
  -- ERR <- VerifyFailed
  | 27 => .next ((s.setErr .verifyFailed).goto 28)
  -- MSG += M_VERIFY_FAILED
  | 28 => .next ((s.say .verifyFailed).goto 29)
  -- HALT
  | 29 => .next (s.call .halt 29)
  | _ => .fault .noSuchStatement

/-- HALT (R229): `HALTED <- 1`; EPC does not advance from then on (R38). -/
def execHalt (s : State) : Out :=
  match s.stmt with
  | 0 => .next { s with halted := true }
  | _ => .fault .noSuchStatement

end Sys2Proof.Machine
end

