-- ==== Sys2Proof/Machine/DeviceCommands.lean ====
section
/-! DEFINITION. The device commands of R95 as instructions: the host issues the command's cycles, one a step, and
the device's mode decides whether each is accepted (R122) or a violation (R139). A read's byte stands in the
last entry of HIST. -/

namespace Sys2Proof.Machine

/-- READ_ARRAY (R123). -/
def execReadArray (a : DevAddr) (v : Byte) (s : State) : Out := issueCycle (.readArray a v) s

/-- SWID_ENTRY (R126): cycles R124, R125, and 0x90 at 0x5555. -/
def execSwidEntry (h1 h2 h3 : HighBits) (s : State) : Out := issueCycle (.swidEntry h1 h2 h3) s

/-- SWID_READ (R127). -/
def execSwidRead (a : DevAddr) (v : Byte) (s : State) : Out := issueCycle (.swidRead a v) s

/-- SWID_EXIT (R128). -/
def execSwidExit (h1 : HighBits) (s : State) : Out := issueCycle (.swidExit h1) s

/-- SECTOR_ERASE (R133): cycles R124, R125, R129, R130, R131, R132. -/
def execSectorErase (h1 h2 h3 h4 h5 : HighBits) (sec : Sector) (s : State) : Out :=
  issueCycle (.sectorErase h1 h2 h3 h4 h5 sec) s

/-- BYTE_PROGRAM (R136): cycles R124, R125, R134, R135. -/
def execByteProgram (h1 h2 h3 : HighBits) (a : DevAddr) (d : Byte) (s : State) : Out :=
  issueCycle (.byteProgram h1 h2 h3 a d) s

/-- STATUS_READ (R137). -/
def execStatusRead (a : DevAddr) (v : Byte) (s : State) : Out := issueCycle (.statusRead a v) s

end Sys2Proof.Machine
end

