-- ==== Sys2Proof/Machine/Planner.lean ====
section
/-! DEFINITION. Command-window planning (43_scheduler_workflow.md, section 2): PLAN and OVERLAP. -/

namespace Sys2Proof.Machine

/-- PLAN D, L (R213). -/
def execPlan (D : Operand Seg) (L : Operand Nat) (s : State) : Out :=
  match s.stmt with
  -- dest <- D << 4
  | 0 =>
    need (operand? D (some s.D)) .D s fun D =>
    .next ((s.setRegs fun g => { g with dest := some (physical D 0) }).goto 1)
  -- seq <- dest - (dest mod 0x8000)
  | 1 =>
    need s.regs.dest .dest s fun dest =>
    .next ((s.setRegs fun g => { g with seq := some (planFloor dest) }).goto 2)
  -- if seq < dest and seq + 0x10000 ≤ dest + L
  | 2 =>
    need s.regs.seq .seq s fun seq =>
    need s.regs.dest .dest s fun dest =>
    need (operand? L (some s.L)) .L s fun L => .next (s.goto (if planRoundsUp dest seq L then 3 else 4))
  -- seq <- seq + 0x8000
  | 3 =>
    need s.regs.seq .seq s fun seq =>
    .next ((s.setRegs fun g => { g with seq := some (seq + WINDOW) }).goto 4)
  -- S <- seq >> 4
  | 4 =>
    need s.regs.seq .seq s fun seq => .next (s.setRegs fun g => { g with S := some (planSegment seq) }).ret
  | _ => .fault .noSuchStatement

/-- OVERLAP S, D, L (R215). -/
def execOverlap (S D : Operand Seg) (L : Operand Nat) (s : State) : Out :=
  match s.stmt with
  -- OVL <- 0
  | 0 => .next ((s.setRegs fun g => { g with OVL := some false }).goto 1)
  -- curr <- S
  | 1 =>
    need (operand? S s.regs.S) .S s fun S =>
    .next ((s.setRegs fun g => { g with curr := some S.toNat }).goto 2)
  -- while curr < S + 0x800
  | 2 =>
    need s.regs.curr .curr s fun curr =>
    need (operand? S s.regs.S) .S s fun S =>
    .next (s.goto (if curr < S.toNat + WINDOW_SEGS then 3 else 9))
  -- if not (D ≤ curr < D + L / 16)
  | 3 =>
    need s.regs.curr .curr s fun curr =>
    need (operand? D (some s.D)) .D s fun D =>
    need (operand? L (some s.L)) .L s fun L => .next (s.goto (if inDestination D L curr then 8 else 4))
  -- b0 <- MemRead(curr:0, 1)
  | 4 =>
    need s.regs.curr .curr s fun curr =>
    engRead (curr * 16) s fun x t => (t.setRegs fun g => { g with b0 := some x }).goto 5
  -- b1 <- MemRead(curr:1, 1)
  | 5 =>
    need s.regs.curr .curr s fun curr =>
    engRead (curr * 16 + 1) s fun x t => (t.setRegs fun g => { g with b1 := some x }).goto 6
  -- if b0 = 0x55 or b1 = 0xFF
  | 6 =>
    need s.regs.b0 .b0 s fun b0 =>
    need s.regs.b1 .b1 s fun b1 => .next (s.goto (if romSignature b0 b1 then 7 else 8))
  -- OVL <- 1
  | 7 => .next ((s.setRegs fun g => { g with OVL := some true }).goto 8)
  -- curr <- curr + 0x80
  | 8 =>
    need s.regs.curr .curr s fun curr =>
    .next ((s.setRegs fun g => { g with curr := some (curr + ROM_STRIDE) }).goto 2)
  -- return
  | 9 => .next s.ret
  | _ => .fault .noSuchStatement

end Sys2Proof.Machine
end

