-- ==== Sys2Proof/Machine/Sequences.lean ====
section
/-! DEFINITION. The engine-issued command sequences (42_command_sequences.md): CS_ENTER, CS_EXIT, DETECT,
ID_DECODE, ERASE_SECTOR, PROGRAM_BYTE. -/

namespace Sys2Proof.Machine

/-- CS_ENTER (R180): `IF <- 0`, its one statement. No depth count. -/
def execCsEnter (s : State) : Out :=
  match s.stmt with
  | 0 => .next (s.setIF false).ret
  | _ => .fault .noSuchStatement

/-- CS_EXIT (R181): `IF <- 1`, its one statement. -/
def execCsExit (s : State) : Out :=
  match s.stmt with
  | 0 => .next (s.setIF true).ret
  | _ => .fault .noSuchStatement

/-- DETECT S, D (R182). -/
def execDetect (S D : Operand Seg) (s : State) : Out :=
  match s.stmt with
  -- CS_ENTER
  | 0 => .next (s.call .csEnter 1)
  -- MemWrite(S:5555, 1, 0xAA)
  | 1 => need (operand? S s.regs.S) .S s fun S => engWrite (unlock1 S) 0xAA s (·.goto 2)
  -- MemWrite(S:2AAA, 1, 0x55)
  | 2 => need (operand? S s.regs.S) .S s fun S => engWrite (unlock2 S) 0x55 s (·.goto 3)
  -- MemWrite(S:5555, 1, 0x90)
  | 3 => need (operand? S s.regs.S) .S s fun S => engWrite (unlock1 S) 0x90 s (·.goto 4)
  -- repeat ID_READS_DEST0 times
  | 4 => .next ((s.setRegs fun g => { g with rep := some 0 }).goto 5)
  | 5 => need s.regs.rep .rep s fun rep => .next (s.goto (if rep < s.cfg.idReads then 6 else 8))
  -- VID <- MemRead(D:0, 1)
  | 6 =>
    need (operand? D (some s.D)) .D s fun D =>
    engRead (physical D 0) s fun x t => (t.setRegs fun g => { g with VID := some x }).goto 7
  | 7 => need s.regs.rep .rep s fun rep => .next ((s.setRegs fun g => { g with rep := some (rep + 1) }).goto 5)
  -- DID <- MemRead(D:1, 1)
  | 8 =>
    need (operand? D (some s.D)) .D s fun D =>
    engRead (physical D 1) s fun x t => (t.setRegs fun g => { g with DID := some x }).goto 9
  -- MemWrite(S:5555, 1, 0xF0), the exit
  | 9 => need (operand? S s.regs.S) .S s fun S => engWrite (unlock1 S) 0xF0 s (·.goto 10)
  -- CS_EXIT
  | 10 => .next (s.call .csExit 11)
  -- return
  | 11 => .next s.ret
  | _ => .fault .noSuchStatement

/-- A test of ID_DECODE's chain: to statement `yes` if the pair names part `p`, else to `no` (R183). With both
registers unset the fault names VID: the model's choice, log 33. -/
def idTest (VID DID : Operand Byte) (p : Part) (yes no : Nat) (s : State) : Out :=
  need (operand? VID s.regs.VID) .VID s fun vid =>
  need (operand? DID s.regs.DID) .DID s fun did =>
  .next (s.goto (if identifies p vid did then yes else no))

/-- `PARTF <- x`, the last statement of a branch of ID_DECODE (R183). -/
def idSet (x : IdResult) (s : State) : Out := .next (s.setRegs fun g => { g with PARTF := some x }).ret

/-- ID_DECODE VID, DID (R183): the chain of tests in the rule's order. -/
def execIdDecode (VID DID : Operand Byte) (s : State) : Out :=
  match s.stmt with
  | 0 => idTest VID DID .SST39SF512 1 2 s
  | 1 => idSet (.known .SST39SF512) s
  | 2 => idTest VID DID .SST39SF010 3 4 s
  | 3 => idSet (.known .SST39SF010) s
  | 4 => idTest VID DID .SST39SF020 5 6 s
  | 5 => idSet (.known .SST39SF020) s
  | 6 => idTest VID DID .SST39SF040 7 8 s
  | 7 => idSet (.known .SST39SF040) s
  | 8 => idSet .none s
  | _ => .fault .noSuchStatement

/-- ERASE_SECTOR S, p (R184). -/
def execEraseSector (S : Operand Seg) (p : Nat) (s : State) : Out :=
  match s.stmt with
  -- MemWrite(S:5555, 1, 0xAA), checked to be in the critical section (R186)
  | 0 => need (operand? S s.regs.S) .S s fun S => engFirstWrite (unlock1 S) 0xAA s (·.goto 1)
  -- MemWrite(S:2AAA, 1, 0x55)
  | 1 => need (operand? S s.regs.S) .S s fun S => engWrite (unlock2 S) 0x55 s (·.goto 2)
  -- MemWrite(S:5555, 1, 0x80)
  | 2 => need (operand? S s.regs.S) .S s fun S => engWrite (unlock1 S) 0x80 s (·.goto 3)
  -- MemWrite(S:5555, 1, 0xAA)
  | 3 => need (operand? S s.regs.S) .S s fun S => engWrite (unlock1 S) 0xAA s (·.goto 4)
  -- MemWrite(S:2AAA, 1, 0x55)
  | 4 => need (operand? S s.regs.S) .S s fun S => engWrite (unlock2 S) 0x55 s (·.goto 5)
  -- MemWrite(p, 1, 0x30)
  | 5 => engWrite p 0x30 s (·.goto 6)
  -- WAIT_ERASE(p)
  | 6 => .next (s.call (.waitErase p) 7)
  -- return its result, which is PR
  | 7 => .next s.ret
  | _ => .fault .noSuchStatement

/-- PROGRAM_BYTE S, p, v (R185). -/
def execProgramByte (S : Operand Seg) (p : Nat) (v : Byte) (s : State) : Out :=
  match s.stmt with
  -- MemWrite(S:5555, 1, 0xAA), checked to be in the critical section (R186)
  | 0 => need (operand? S s.regs.S) .S s fun S => engFirstWrite (unlock1 S) 0xAA s (·.goto 1)
  -- MemWrite(S:2AAA, 1, 0x55)
  | 1 => need (operand? S s.regs.S) .S s fun S => engWrite (unlock2 S) 0x55 s (·.goto 2)
  -- MemWrite(S:5555, 1, 0xA0)
  | 2 => need (operand? S s.regs.S) .S s fun S => engWrite (unlock1 S) 0xA0 s (·.goto 3)
  -- MemWrite(p, 1, v)
  | 3 => engWrite p v s (·.goto 4)
  -- WAIT_PROGRAM(p, v)
  | 4 => .next (s.call (.waitProgram p v) 5)
  -- return its result, which is PR
  | 5 => .next s.ret
  | _ => .fault .noSuchStatement

end Sys2Proof.Machine
end

