-- ==== Sys2Proof/Machine/Timing.lean ====
section
/-! DEFINITION. The timing arbiter (41_timing_arbiter.md): POLL, CAL, WAIT_PROGRAM, WAIT_ERASE. Each definition
executes the statement at the top frame's index; the comment on an arm is the pseudocode's line. -/

namespace Sys2Proof.Machine

/-- POLL p, v, k (R160). That the line `if k = 0 …` is one statement, test and write, is the model's choice, log 15. -/
def execPoll (p : Nat) (v : Byte) (k : Count) (s : State) : Out :=
  match s.stmt with
  -- n_max <- k, or what POLL_ZERO says
  | 0 => .next ((s.setRegs fun g => { g with nMax := some (pollBound s.cfg k) }).goto 1)
  -- n <- 0
  | 1 => .next ((s.setRegs fun g => { g with n := some 0 }).goto 2)
  -- while n < n_max
  | 2 =>
    need s.regs.n .n s fun n =>
    need s.regs.nMax .nMax s fun m => .next (s.goto (if n < m then 3 else 8))
  -- r <- MemRead(p, 1)
  | 3 => engRead p s fun x t => (t.setRegs fun g => { g with r := some x }).goto 4
  -- n <- n + 1
  | 4 => need s.regs.n .n s fun n => .next ((s.setRegs fun g => { g with n := some (n + 1) }).goto 5)
  -- if r = v
  | 5 => need s.regs.r .r s fun r => .next (s.goto (if r = v then 6 else 2))
  -- PR <- 1
  | 6 => .next ((s.setRegs fun g => { g with PR := some true }).goto 7)
  -- return TRUE
  | 7 => .next s.ret
  -- PR <- 0
  | 8 => .next ((s.setRegs fun g => { g with PR := some false }).goto 9)
  -- return FALSE
  | 9 => .next s.ret
  | _ => .fault .noSuchStatement

/-- CAL D (R162): statements 1 to 10 under MEMCFG = REAL, statement 11 under TEST. That the choice between them is a
statement of its own, 0, is the model's choice, log 15. -/
def execCal (D : Operand Seg) (s : State) : Out :=
  match s.stmt with
  -- which pseudocode MEMCFG selects
  | 0 => .next (s.goto (match s.cfg.memcfg with | .real => 1 | .test => 11))
  -- p <- D << 4
  | 1 =>
    need (operand? D (some s.D)) .D s fun d =>
    .next ((s.setRegs fun g => { g with calP := some (physical d 0) }).goto 2)
  -- probe <- ~MemRead(p, 1)
  | 2 =>
    need s.regs.calP .calP s fun p =>
    engRead p s fun x t => (t.setRegs fun g => { g with probe := some (x ^^^ 0xFF) }).goto 3
  -- t0 <- MemRead(TICK_ADDR, 1)
  | 3 => engRead s.cfg.tickAddr.toNat s fun x t => (t.setRegs fun g => { g with t0 := some x }).goto 4
  -- repeat t1 <- MemRead(TICK_ADDR, 1)
  | 4 => engRead s.cfg.tickAddr.toNat s fun x t => (t.setRegs fun g => { g with t1 := some x }).goto 5
  -- until t1 ≠ t0
  | 5 =>
    need s.regs.t1 .t1 s fun t1 =>
    need s.regs.t0 .t0 s fun t0 => .next (s.goto (if t1 = t0 then 4 else 6))
  -- N <- 0
  | 6 => .next ((s.setRegs fun g => { g with N := some 0 }).goto 7)
  -- while MemRead(TICK_ADDR, 1) = t1
  | 7 =>
    need s.regs.t1 .t1 s fun t1 =>
    engRead s.cfg.tickAddr.toNat s fun x t => t.goto (if x = t1 then 8 else 10)
  -- POLL(p, probe, 256), the result ignored
  | 8 =>
    need s.regs.calP .calP s fun p =>
    need s.regs.probe .probe s fun probe => .next (s.call (.poll p probe CAL_TRIES) 9)
  -- N <- min(N + 1, 0xFFFF)
  | 9 => need s.regs.N .N s fun N => .next ((s.setRegs fun g => { g with N := some (sat16 (N + 1)) }).goto 7)
  -- T <- N
  | 10 =>
    need s.regs.N .N s fun N => .next (s.setRegs fun g => { g with T := some (BitVec.ofNat 16 N) }).ret
  -- T <- CAL_SENTINEL, no bus cycle
  | 11 => .next (s.setRegs fun g => { g with T := some s.cfg.calSentinel }).ret
  | _ => .fault .noSuchStatement

/-- WAIT_PROGRAM p, v (R164). -/
def execWaitProgram (p : Nat) (v : Byte) (s : State) : Out :=
  match s.stmt with
  -- POLL(p, v, T)
  | 0 => need s.regs.T .T s fun T => .next (s.call (.poll p v T) 1)
  -- return its result, which is PR
  | 1 => .next s.ret
  | _ => .fault .noSuchStatement

/-- WAIT_ERASE p (R165). -/
def execWaitErase (p : Nat) (s : State) : Out :=
  match s.stmt with
  -- j <- 0
  | 0 => .next ((s.setRegs fun g => { g with j := some 0 }).goto 1)
  -- while j < 1163
  | 1 => need s.regs.j .j s fun j => .next (s.goto (if j < ERASE_UNITS then 2 else 7))
  -- POLL(p, 0xFF, T)
  | 2 => need s.regs.T .T s fun T => .next (s.call (.poll p 0xFF T) 3)
  -- if it returned TRUE
  | 3 => need s.regs.PR .PR s fun PR => .next (s.goto (if PR then 4 else 6))
  -- PR <- 1
  | 4 => .next ((s.setRegs fun g => { g with PR := some true }).goto 5)
  -- return TRUE
  | 5 => .next s.ret
  -- j <- j + 1
  | 6 => need s.regs.j .j s fun j => .next ((s.setRegs fun g => { g with j := some (j + 1) }).goto 1)
  -- PR <- 0
  | 7 => .next ((s.setRegs fun g => { g with PR := some false }).goto 8)
  -- return FALSE
  | 8 => .next s.ret
  | _ => .fault .noSuchStatement

end Sys2Proof.Machine
end

