-- ==== Sys2Proof/Machine/Workflow.lean ====
section
/-! DEFINITION. The block workflow (43_scheduler_workflow.md, section 3): COMPARE_BLOCK, FLASH, VERIFY. -/

namespace Sys2Proof.Machine

/-- COMPARE_BLOCK i (R218): its result register is `equal`. -/
def execCompareBlock (i : Nat) (s : State) : Out :=
  match s.stmt with
  -- for b in 0 .. 4095
  | 0 => .next ((s.setRegs fun g => { g with b := some 0 }).goto 1)
  | 1 => need s.regs.b .b s fun b => .next (s.goto (if b < SECTOR then 2 else 5))
  -- if MemRead(pbase(i) + b, 1) ≠ IMG[i][b]
  | 2 =>
    need s.regs.b .b s fun b =>
    needImage i b s fun w =>
    engRead (s.pbase i + b) s fun x t => t.goto (if x = w then 3 else 4)
  | 3 => need s.regs.b .b s fun b => .next ((s.setRegs fun g => { g with b := some (b + 1) }).goto 1)
  -- return FALSE
  | 4 => .next (s.setRegs fun g => { g with equal := some false }).ret
  -- return TRUE
  | 5 => .next (s.setRegs fun g => { g with equal := some true }).ret
  | _ => .fault .noSuchStatement

/-- FLASH (R220), with the critical section over its whole block loop (R219). -/
def execFlash (s : State) : Out :=
  match s.stmt with
  -- CNT <- 0
  | 0 => .next ((s.setRegs fun g => { g with CNT := some 0 }).goto 1)
  -- CS_ENTER
  | 1 => .next (s.call .csEnter 2)
  -- for i in 0 .. NBLK-1
  | 2 => .next ((s.setRegs fun g => { g with i := some 0 }).goto 3)
  | 3 => need s.regs.i .i s fun i => .next (s.goto (if i < s.NBLK then 4 else 23))
  -- COMPARE_BLOCK(i)
  | 4 => need s.regs.i .i s fun i => .next (s.call (.compareBlock i) 5)
  -- if it returned TRUE: continue
  | 5 => need s.regs.equal .equal s fun eq => .next (s.goto (if eq then 22 else 6))
  -- ERASE_SECTOR(S, pbase(i))
  | 6 => need s.regs.i .i s fun i => .next (s.call (.eraseSector .reg (s.pbase i)) 7)
  -- if not
  | 7 => need s.regs.PR .PR s fun PR => .next (s.goto (if PR then 12 else 8))
  -- ERR <- EraseTimeout
  | 8 => .next ((s.setErr .eraseTimeout).goto 9)
  -- CS_EXIT
  | 9 => .next (s.call .csExit 10)
  -- CNT <- -1
  | 10 => .next ((s.setRegs fun g => { g with CNT := some (-1) }).goto 11)
  -- return
  | 11 => .next s.ret
  -- for b in 0 .. 4095
  | 12 => .next ((s.setRegs fun g => { g with b := some 0 }).goto 13)
  | 13 => need s.regs.b .b s fun b => .next (s.goto (if b < SECTOR then 14 else 21))
  -- PROGRAM_BYTE(S, pbase(i) + b, IMG[i][b])
  | 14 =>
    need s.regs.i .i s fun i =>
    need s.regs.b .b s fun b =>
    needImage i b s fun v => .next (s.call (.programByte .reg (s.pbase i + b) v) 15)
  -- if not
  | 15 => need s.regs.PR .PR s fun PR => .next (s.goto (if PR then 20 else 16))
  -- ERR <- ProgramTimeout
  | 16 => .next ((s.setErr .programTimeout).goto 17)
  -- CS_EXIT
  | 17 => .next (s.call .csExit 18)
  -- CNT <- -1
  | 18 => .next ((s.setRegs fun g => { g with CNT := some (-1) }).goto 19)
  -- return
  | 19 => .next s.ret
  | 20 => need s.regs.b .b s fun b => .next ((s.setRegs fun g => { g with b := some (b + 1) }).goto 13)
  -- CNT <- CNT + 1
  | 21 => need s.regs.CNT .CNT s fun c => .next ((s.setRegs fun g => { g with CNT := some (c + 1) }).goto 22)
  | 22 => need s.regs.i .i s fun i => .next ((s.setRegs fun g => { g with i := some (i + 1) }).goto 3)
  -- CS_EXIT
  | 23 => .next (s.call .csExit 24)
  -- return
  | 24 => .next s.ret
  | _ => .fault .noSuchStatement

/-- VERIFY (R222). -/
def execVerify (s : State) : Out :=
  match s.stmt with
  -- for i in 0 .. NBLK-1
  | 0 => .next ((s.setRegs fun g => { g with i := some 0 }).goto 1)
  | 1 => need s.regs.i .i s fun i => .next (s.goto (if i < s.NBLK then 2 else 9))
  -- for b in 0 .. 4095
  | 2 => .next ((s.setRegs fun g => { g with b := some 0 }).goto 3)
  | 3 => need s.regs.b .b s fun b => .next (s.goto (if b < SECTOR then 4 else 8))
  -- if MemRead(pbase(i) + b, 1) ≠ IMG[i][b]
  | 4 =>
    need s.regs.i .i s fun i =>
    need s.regs.b .b s fun b =>
    needImage i b s fun w =>
    engRead (s.pbase i + b) s fun x t => t.goto (if x = w then 5 else 6)
  | 5 => need s.regs.b .b s fun b => .next ((s.setRegs fun g => { g with b := some (b + 1) }).goto 3)
  -- VOK <- 0
  | 6 => .next ((s.setRegs fun g => { g with VOK := some false }).goto 7)
  -- return
  | 7 => .next s.ret
  | 8 => need s.regs.i .i s fun i => .next ((s.setRegs fun g => { g with i := some (i + 1) }).goto 1)
  -- VOK <- 1
  | 9 => .next (s.setRegs fun g => { g with VOK := some true }).ret
  | _ => .fault .noSuchStatement

end Sys2Proof.Machine
end

