-- ==== Sys2Proof/Machine/Dispatch.lean ====
section
/-! DEFINITION. One arm per instruction: the step an instruction takes at the state's statement index. -/

namespace Sys2Proof.Machine

def exec (i : Instr) (s : State) : Host.Outcome State Fault Refusal :=
  match i with
  | .readArray a v => Sys2Proof.Machine.execReadArray a v s
  | .swidEntry h1 h2 h3 => Sys2Proof.Machine.execSwidEntry h1 h2 h3 s
  | .swidRead a v => Sys2Proof.Machine.execSwidRead a v s
  | .swidExit h1 => Sys2Proof.Machine.execSwidExit h1 s
  | .sectorErase h1 h2 h3 h4 h5 sec => Sys2Proof.Machine.execSectorErase h1 h2 h3 h4 h5 sec s
  | .byteProgram h1 h2 h3 a d => Sys2Proof.Machine.execByteProgram h1 h2 h3 a d s
  | .statusRead a v => Sys2Proof.Machine.execStatusRead a v s
  | .poll p v k => Sys2Proof.Machine.execPoll p v k s
  | .cal D => Sys2Proof.Machine.execCal D s
  | .waitProgram p v => Sys2Proof.Machine.execWaitProgram p v s
  | .waitErase p => Sys2Proof.Machine.execWaitErase p s
  | .csEnter => Sys2Proof.Machine.execCsEnter s
  | .csExit => Sys2Proof.Machine.execCsExit s
  | .detect S D => Sys2Proof.Machine.execDetect S D s
  | .idDecode VID DID => Sys2Proof.Machine.execIdDecode VID DID s
  | .eraseSector S p => Sys2Proof.Machine.execEraseSector S p s
  | .programByte S p v => Sys2Proof.Machine.execProgramByte S p v s
  | .plan D L => Sys2Proof.Machine.execPlan D L s
  | .overlap S D L => Sys2Proof.Machine.execOverlap S D L s
  | .compareBlock k => Sys2Proof.Machine.execCompareBlock k s
  | .flash => Sys2Proof.Machine.execFlash s
  | .verify => Sys2Proof.Machine.execVerify s
  | .run => Sys2Proof.Machine.execRun s
  | .halt => Sys2Proof.Machine.execHalt s

end Sys2Proof.Machine
end

