-- ==== Sys2Proof/Machine/Agents.lean ====
section
/-! DEFINITION. The steps of the agents (R12) and which of them comes next (R267). -/

namespace Sys2Proof.Machine

/-! ## ENG -/

/-- The run of the engine is over: it takes no step that changes DEV, ENG or HIST (R38, R41). -/
def State.ended (s : State) : Bool := s.exit.isSome || s.halted

/-- A device cycle word that begins no command: the host issues the one cycle, and the device's mode decides
whether it is accepted (R97, R122). -/
def issueWord (c : Dcw) (s : State) : Out :=
  match s.cfg.hostAddr? c.a with
  | none => .refused (.unreachableDeviceAddress c.a)
  | some p => if c.wr then engWrite p.toNat c.v s id else engRead p.toNat s fun _ t => t

/-- The fetch of a program of device cycle words, when no procedure runs: the command at the head of the queue,
decoded in the device's mode (R96), becomes the one frame, at its first cycle. -/
def State.fetched (s : State) (i : Instr) : State :=
  { s with epc := [⟨i, 0⟩], queue := s.queue.drop i.cycles.length }

/-- ENG with no procedure running: it issues what the queue holds. An empty queue is idle. -/
def fetchStep (s : State) : Out :=
  match s.queue with
  | [] => .next s
  | w :: ws =>
    match decodeWords s.dev.mode s.queue with
    | .ok (i, _) => if i.wf s.cfg.part then exec i (s.fetched i) else .refused .beyondPart
    | .error _ => issueWord (Dcw.ofBits w) { s with queue := ws }

/-- ENG executes exactly one statement: the one the top frame names (R38). -/
def engStep (s : State) : Out :=
  if s.ended then .next s
  else match s.epc with
    | f :: _ => exec f.op s
    | [] => fetchStep s

/-! ## ISR -/

/-- ISR: one read of any physical address while IF = 1, nothing while IF = 0 (R265). -/
def isrStep (p : PhysAddr) (s : State) : Out :=
  if s.IF then
    match s.busRead .isr p.toNat with
    | .ok _ s' => .next s'
    | .stop s' => .next s'
  else .next s

/-! ## The interleaving -/

/-- One step of an agent (R12, R267). DEV's step is a completion (R138, R140). -/
def agentStep (m : Move) (s : State) : Out :=
  match m with
  | .eng => engStep s
  | .dev => .next s.complete
  | .tick => .next s.tickStep
  | .isr p => isrStep p s

/-- Which agent moves next: the head of the schedule, a free value where it lists none (R267). Log 3. -/
def State.nextMove (s : State) : Move :=
  match s.sched with
  | m :: _ => m
  | [] => Config.freeMove s.draws

/-- The state after the choice of the move. -/
def State.moveTaken (s : State) : State :=
  match s.sched with
  | _ :: rest => { s with sched := rest }
  | [] => s.drawn

/-- One step of the machine: a recorded fault stops every agent (R263). -/
def machineStep (s : State) : Out :=
  match s.faults with
  | f :: _ => .fault (.quiescent f)
  | [] => agentStep s.nextMove s.moveTaken

/-! ## Runs of several steps -/

/-- `k` steps of ENG with no other agent's step between them, as far as no fault is recorded. -/
def engRun : Nat → State → Out
  | 0, s => .next s
  | k + 1, s =>
    match s.faults with
    | f :: _ => .fault (.quiescent f)
    | [] =>
      match engStep s with
      | .next t => engRun k t
      | .fault r => .fault r
      | .refused r => .refused r

/-- The agents' steps in the order of a list of moves. -/
def movesRun : List Move → State → Out
  | [], s => .next s
  | m :: ms, s =>
    match s.faults with
    | f :: _ => .fault (.quiescent f)
    | [] =>
      match agentStep m s with
      | .next t => movesRun ms t
      | .fault r => .fault r
      | .refused r => .refused r

end Sys2Proof.Machine
end

