-- ==== Sys2Proof/Machine/Launch.lean ====
section
/-! DEFINITION. What happens before RUN: the checks of the launch inputs (R210, R211), image conditioning (R212)
and the boot order (R293); and what passes from a run to the next (R279, R295). The block's own rules take the results as premises (R292). -/

namespace Sys2Proof.Machine

/-- The constraint on the destination segment (R210). -/
def legalD (D : Seg) : Bool := decide (SEG_MIN ≤ D.toNat) && decide (D.toNat ≤ SEG_MAX) && D.toNat % 0x100 == 0

/-- The constraint on the size override (R210). -/
def legalK : Option Nat → Bool
  | none => true
  | some K => K % 2 == 0 && decide (2 ≤ K) && decide (K ≤ 256)

/-- The image contract I1 to I4 (R211). -/
abbrev imageOk (img : List (List Byte)) (orig : Nat) (K : Option Nat) : Prop :=
  (1 ≤ img.length ∧ img.length ≤ MAX_BLOCKS ∧ ∀ blk ∈ img, blk.length = SECTOR) ∧
  (0 < orig ∧ orig % 2048 = 0) ∧
  (∀ v ∈ img.flatten.drop orig, v = 0x00) ∧
  (match K with
    | none => img.length = (orig + 4095) / 4096
    | some K => orig ≤ K * 1024 ∧ img.length = (K * 1024 + 4095) / 4096)

/-- What image conditioning gives. -/
structure Loaded where
  img : List (List Byte)
  orig : Nat
  /-- The messages: M_PADDED where the tail block is padded (R212, R268). -/
  msg : List Msg
  deriving DecidableEq, Repr

/-- LOAD's `limit` (R212). -/
def loadLimit : Option Nat → Nat
  | some K => K * 1024
  | none => MAX_BLOCKS * SECTOR

/-- One block: its file bytes and then 0x00 up to 4096 (R212). -/
def padBlock (bytes : List Byte) : List Byte := bytes ++ List.replicate (SECTOR - bytes.length) 0x00

/-- LOAD's reading loop: blocks of at most 4096 file bytes, at most `fuel` of them (R212). -/
def loadBlocks : Nat → List Byte → List (List Byte)
  | 0, _ => []
  | _, [] => []
  | fuel + 1, b :: bytes =>
      padBlock ((b :: bytes).take SECTOR) :: loadBlocks fuel ((b :: bytes).drop SECTOR)

/-- LOAD's padding loop: zero blocks while `|blocks| × 4096 < limit`, with K only (R212). -/
def padBlocks (K : Option Nat) (blocks : List (List Byte)) : List (List Byte) :=
  match K with
  | none => blocks
  | some K =>
      blocks ++ List.replicate ((K * 1024 + (SECTOR - 1)) / SECTOR - blocks.length) (List.replicate SECTOR 0x00)

/-- LOAD (R212): image conditioning of a file's bytes. -/
def load (file : List Byte) (K : Option Nat) : Except ErrCause Loaded :=
  let bytes := file.take (loadLimit K)
  let img := padBlocks K (loadBlocks MAX_BLOCKS bytes)
  if 0 < bytes.length ∧ bytes.length % 2048 = 0 ∧ img.length ≤ MAX_BLOCKS then
    .ok ⟨img, bytes.length, if bytes.length % SECTOR = 0 then [] else [.padded]⟩
  else .error .imageRejected

/-- The boot order (R293): the front end's check, then the loader, then the launch of RUN. -/
def boot (cfg : Config) (array0 : List Host.Cell) (tick : Byte) (D : Seg) (K : Option Nat) (file : List Byte) :
    Except ErrCause State :=
  if legalD D && legalK K then
    (load file K).map fun l => State.launch cfg array0 D l.img l.orig tick
  else .error .invalidArguments

/-! ## Across runs (R279, R295) -/

/-- What a power cycle leaves of the array: all of it, but for the sector or the byte of an erase or program in
progress, which is unspecified. Log 36. -/
def State.persisted (s : State) : List Host.Cell :=
  match s.dev.mode with
  | .ebusy sec =>
      Memory.writeEach (blankByte s.cfg.memcfg) (Config.powerLoss s.draws) s.dev.array
        (List.range' (sec.toNat * SECTOR) SECTOR)
  | .pbusy pa _ =>
      Memory.write (blankByte s.cfg.memcfg) s.dev.array pa.toNat (Config.powerLoss s.draws pa.toNat)
  | .read | .u1 _ | .u2 _ | .id _ | .e1 | .e2 | .e3 | .p1 | .indet => s.dev.array

/-- The next run on the same machine after a power cycle: only the array persists (R295). The count of free values
goes on, so that the runs do not share their draws. -/
def State.nextRun (s : State) (D : Seg) (img : List (List Byte)) (orig : Nat) (tick : Byte) : State :=
  { State.launch s.cfg s.persisted D img orig tick with draws := s.draws + 1 }

end Sys2Proof.Machine
end

