-- ==== Sys2Proof/Machine/Step.lean ====
section
/-! DEFINITION. One step of the machine, and where a device command is placed for it. -/

namespace Sys2Proof.Machine

/-- One step: the next agent's (R12, R38, R263, R267). -/
def step (s : State) : Host.Outcome State Fault Refusal := machineStep s

/-- `s` with the device command of a table row placed where ENG fetches it: the words wait in the queue, no
procedure runs, no fault or end stands in the way, and the next move is ENG's. Log 10 says how programs come to
run. -/
def State.withFetchWord (s : State) (nbits w : Nat) : State :=
  { s with queue := tableWords nbits w, epc := [], sched := .eng :: s.sched, faults := [], exit := none,
           halted := false }

end Sys2Proof.Machine
end

