-- ==== Sys2Proof/Machine/Procedures.lean ====
section
/-! DEFINITION. The shape of EPC (R38): how many statements a procedure has, which registers each of
them reads (R262), which procedures call which, and at which positions of a run from RUN the device may be inside a
command sequence (R186, R189, R219, R280). -/

namespace Sys2Proof

/-- The number of statements of a procedure; a device command has one per cycle (R38, R92). -/
def Instr.length : Instr → Nat
  | .readArray _ _ => 1
  | .swidEntry _ _ _ => 3
  | .swidRead _ _ => 1
  | .swidExit _ => 1
  | .sectorErase _ _ _ _ _ _ => 6
  | .byteProgram _ _ _ _ _ => 4
  | .statusRead _ _ => 1
  | .poll _ _ _ => 10
  | .cal _ => 12
  | .waitProgram _ _ => 2
  | .waitErase _ => 9
  | .csEnter => 1
  | .csExit => 1
  | .detect _ _ => 12
  | .idDecode _ _ => 9
  | .eraseSector _ _ => 8
  | .programByte _ _ _ => 6
  | .plan _ _ => 5
  | .overlap _ _ _ => 10
  | .compareBlock _ => 6
  | .flash => 25
  | .verify => 10
  | .run => 30
  | .halt => 1

/-- How deep the calls of a procedure can go, itself included: RUN → FLASH → PROGRAM_BYTE → WAIT_PROGRAM → POLL
is the deepest chain (R38). -/
def Instr.rank : Instr → Nat
  | .readArray _ _ | .swidEntry _ _ _ | .swidRead _ _ | .swidExit _ | .sectorErase _ _ _ _ _ _
  | .byteProgram _ _ _ _ _ | .statusRead _ _ => 1
  | .poll _ _ _ | .csEnter | .csExit | .idDecode _ _ | .plan _ _ | .overlap _ _ _ | .compareBlock _ | .verify
  | .halt => 1
  | .cal _ | .waitProgram _ _ | .waitErase _ | .detect _ _ => 2
  | .eraseSector _ _ | .programByte _ _ _ => 3
  | .flash => 4
  | .run => 5

/-- The modes in which the device is in no sequence and not in ID: READ, EBUSY, PBUSY (R280). -/
def DevMode.calm : DevMode → Bool
  | .read | .ebusy _ | .pbusy _ _ => true
  | .u1 _ | .u2 _ | .id _ | .e1 | .e2 | .e3 | .p1 | .indet => false

/-- A busy mode holds a sector or an address that the part has (R23, R92). -/
def DevMode.inPart (part : Part) : DevMode → Prop
  | .ebusy sec => sec.toNat < part.sectors
  | .pbusy pa _ => pa.toNat < part.devSize
  | .read | .u1 _ | .u2 _ | .id _ | .e1 | .e2 | .e3 | .p1 | .indet => True

namespace Machine

/-! ## Registers that a statement reads -/

/-- A register operand's name, where the operand is the register (R100). -/
def operandName {α : Type} (o : Operand α) (register : RegName) : List RegName :=
  match o with
  | .reg => [register]
  | .imm _ => []

/-- The registers that statement `k` of a procedure reads and that can be unset (R31, R32, R37), in the order in which
the model looks at them (log 33). -/
def operandRegs (i : Instr) (k : Nat) : List RegName :=
  match i, k with
  | .poll _ _ _, 2 => [.n, .nMax]
  | .poll _ _ _, 4 => [.n]
  | .poll _ _ _, 5 => [.r]
  | .cal _, 2 => [.calP]
  | .cal _, 5 => [.t1, .t0]
  | .cal _, 7 => [.t1]
  | .cal _, 8 => [.calP, .probe]
  | .cal _, 9 | .cal _, 10 => [.N]
  | .waitProgram _ _, 0 => [.T]
  | .waitErase _, 1 | .waitErase _, 6 => [.j]
  | .waitErase _, 2 => [.T]
  | .waitErase _, 3 => [.PR]
  | .detect S _, 1 | .detect S _, 2 | .detect S _, 3 | .detect S _, 9 => operandName S .S
  | .detect _ _, 5 | .detect _ _, 7 => [.rep]
  | .idDecode V W, 0 | .idDecode V W, 2 | .idDecode V W, 4 | .idDecode V W, 6 => operandName V .VID ++ operandName W .DID
  | .eraseSector S _, 0 | .eraseSector S _, 1 | .eraseSector S _, 2 | .eraseSector S _, 3
  | .eraseSector S _, 4 => operandName S .S
  | .programByte S _ _, 0 | .programByte S _ _, 1 | .programByte S _ _, 2 => operandName S .S
  | .plan _ _, 1 => [.dest]
  | .plan _ _, 2 => [.seq, .dest]
  | .plan _ _, 3 | .plan _ _, 4 => [.seq]
  | .overlap S _ _, 1 => operandName S .S
  | .overlap S _ _, 2 => .curr :: operandName S .S
  | .overlap _ _ _, 3 | .overlap _ _ _, 4 | .overlap _ _ _, 5 | .overlap _ _ _, 8 => [.curr]
  | .overlap _ _ _, 6 => [.b0, .b1]
  | .compareBlock _, 1 | .compareBlock _, 2 | .compareBlock _, 3 => [.b]
  | .flash, 3 | .flash, 4 | .flash, 6 | .flash, 22 => [.i]
  | .flash, 5 => [.equal]
  | .flash, 7 | .flash, 15 => [.PR]
  | .flash, 13 | .flash, 20 => [.b]
  | .flash, 14 => [.i, .b]
  | .flash, 21 => [.CNT]
  | .verify, 1 | .verify, 8 => [.i]
  | .verify, 3 | .verify, 5 => [.b]
  | .verify, 4 => [.i, .b]
  | .run, 5 | .run, 11 => [.PARTF]
  | .run, 6 => [.S]
  | .run, 9 => [.OVL]
  | .run, 14 => [.ANS]
  | .run, 18 | .run, 21 => [.CNT]
  | .run, 25 => [.VOK]
  | _, _ => []

/-- A register holds no value (R32). D and L always hold one (R35). -/
def State.lacks (s : State) : RegName → Bool
  | .T => s.regs.T.isNone
  | .S => s.regs.S.isNone
  | .OVL => s.regs.OVL.isNone
  | .VID => s.regs.VID.isNone
  | .DID => s.regs.DID.isNone
  | .PARTF => s.regs.PARTF.isNone
  | .CNT => s.regs.CNT.isNone
  | .VOK => s.regs.VOK.isNone
  | .PR => s.regs.PR.isNone
  | .i => s.regs.i.isNone
  | .b => s.regs.b.isNone
  | .j => s.regs.j.isNone
  | .n => s.regs.n.isNone
  | .N => s.regs.N.isNone
  | .t0 => s.regs.t0.isNone
  | .t1 => s.regs.t1.isNone
  | .probe => s.regs.probe.isNone
  | .curr => s.regs.curr.isNone
  | .ANS => s.regs.ANS.isNone
  | .equal => s.regs.equal.isNone
  | .calP => s.regs.calP.isNone
  | .nMax => s.regs.nMax.isNone
  | .r => s.regs.r.isNone
  | .dest => s.regs.dest.isNone
  | .seq => s.regs.seq.isNone
  | .b0 => s.regs.b0.isNone
  | .b1 => s.regs.b1.isNone
  | .rep => s.regs.rep.isNone
  | .D | .L => false

/-! ## EPC, IF and the mode -/

/-- EPC is a stack of calls: each frame's procedure is called from one of higher rank, and each index is a
statement of its procedure (R38). -/
def EpcWf (epc : List Frame) : Prop :=
  epc.Pairwise (fun f g => f.op.rank < g.op.rank) ∧ ∀ f ∈ epc, f.idx < f.op.length

/-- Where DETECT stands in its sequence (R182): IF and the mode at each statement. -/
def detectPhase (k : Nat) (IF : Bool) (m : DevMode) : Prop :=
  match k with
  | 0 => IF = true ∧ m.calm
  | 1 => IF = false ∧ m.calm
  | 2 => IF = false ∧ ∃ b, m = .u1 b
  | 3 => IF = false ∧ ∃ b, m = .u2 b
  | 4 | 5 | 6 | 7 | 8 | 9 => IF = false ∧ ∃ n, m = .id n
  | 10 => IF = false ∧ m = .read
  | 11 => IF = true ∧ m.calm
  | _ => False

/-- Where ERASE_SECTOR stands in its sequence (R184). -/
def erasePhase (k : Nat) (m : DevMode) : Prop :=
  match k with
  | 0 => m.calm
  | 1 => ∃ b, m = .u1 b
  | 2 => ∃ b, m = .u2 b
  | 3 => m = .e1
  | 4 => m = .e2
  | 5 => m = .e3
  | 6 | 7 => m.calm
  | _ => False

/-- Where PROGRAM_BYTE stands in its sequence (R185). -/
def programPhase (k : Nat) (m : DevMode) : Prop :=
  match k with
  | 0 => m.calm
  | 1 => ∃ b, m = .u1 b
  | 2 => ∃ b, m = .u2 b
  | 3 => m = .p1
  | 4 | 5 => m.calm
  | _ => False

/-- FLASH holds the critical section from after its CS_ENTER to its CS_EXIT (R219). -/
def flashMasked (k : Nat) : Bool :=
  !(k ∈ [0, 1, 10, 11, 18, 19, 24] : Bool)

/-- IF and the device's mode at every position of EPC that a run from RUN reaches (R186, R188, R280). -/
def Phase (epc : List Frame) (IF : Bool) (m : DevMode) : Prop :=
  match epc with
  | [⟨.run, _⟩] => IF = true ∧ m.calm
  | [⟨.cal _, _⟩, ⟨.run, _⟩] => IF = true ∧ m.calm
  | [⟨.poll _ _ _, _⟩, ⟨.cal _, _⟩, ⟨.run, _⟩] => IF = true ∧ m.calm
  | [⟨.plan _ _, _⟩, ⟨.run, _⟩] => IF = true ∧ m.calm
  | [⟨.overlap _ _ _, _⟩, ⟨.run, _⟩] => IF = true ∧ m.calm
  | [⟨.idDecode _ _, _⟩, ⟨.run, _⟩] => IF = true ∧ m.calm
  | [⟨.verify, _⟩, ⟨.run, _⟩] => IF = true ∧ m.calm
  | [⟨.halt, _⟩, ⟨.run, _⟩] => IF = true ∧ m.calm
  | [⟨.detect _ _, k⟩, ⟨.run, _⟩] => detectPhase k IF m
  | [⟨.csEnter, _⟩, ⟨.detect _ _, k⟩, ⟨.run, _⟩] => k = 1 ∧ m.calm
  | [⟨.csExit, _⟩, ⟨.detect _ _, k⟩, ⟨.run, _⟩] => k = 11 ∧ m.calm
  | [⟨.flash, k⟩, ⟨.run, _⟩] => IF = !flashMasked k ∧ m.calm
  | [⟨.csEnter, _⟩, ⟨.flash, k⟩, ⟨.run, _⟩] => flashMasked k = true ∧ m.calm
  | [⟨.csExit, _⟩, ⟨.flash, k⟩, ⟨.run, _⟩] => flashMasked k = false ∧ m.calm
  | [⟨.compareBlock _, _⟩, ⟨.flash, k⟩, ⟨.run, _⟩] => k = 5 ∧ IF = false ∧ m.calm
  | [⟨.eraseSector _ _, n⟩, ⟨.flash, k⟩, ⟨.run, _⟩] => k = 7 ∧ IF = false ∧ erasePhase n m
  | [⟨.waitErase _, _⟩, ⟨.eraseSector _ _, n⟩, ⟨.flash, k⟩, ⟨.run, _⟩] =>
      k = 7 ∧ n = 7 ∧ IF = false ∧ m.calm
  | [⟨.poll _ _ _, _⟩, ⟨.waitErase _, _⟩, ⟨.eraseSector _ _, n⟩, ⟨.flash, k⟩, ⟨.run, _⟩] =>
      k = 7 ∧ n = 7 ∧ IF = false ∧ m.calm
  | [⟨.programByte _ _ _, n⟩, ⟨.flash, k⟩, ⟨.run, _⟩] => k = 15 ∧ IF = false ∧ programPhase n m
  | [⟨.waitProgram _ _, _⟩, ⟨.programByte _ _ _, n⟩, ⟨.flash, k⟩, ⟨.run, _⟩] =>
      k = 15 ∧ n = 5 ∧ IF = false ∧ m.calm
  | [⟨.poll _ _ _, _⟩, ⟨.waitProgram _ _, _⟩, ⟨.programByte _ _ _, n⟩, ⟨.flash, k⟩, ⟨.run, _⟩] =>
      k = 15 ∧ n = 5 ∧ IF = false ∧ m.calm
  | _ => False

end Machine

end Sys2Proof
end

