-- ==== Sys2Proof/Safety.lean ====
section
/-! DEFINITION. What the claims are said in: launch premises, terminal outcomes, the named assumptions, and the
invariants. -/

namespace Sys2Proof.Machine

/-! ## Launch premises (R290, R292) -/

/-- DEV_CLEAN: the device is in READ with nothing in flight (R290). -/
def DevClean (s : State) : Prop := s.dev.mode = .read ∧ s.dev.fault = false

/-- The premises P1 to P6 of R292, and R46's values of the state that they do not name. -/
structure LaunchPremises (s : State) (K : Option Nat) : Prop where
  clean : DevClean s
  noFault : s.faults = [] ∧ s.err = none
  enabled : s.IF = true
  inputs : legalD s.D = true ∧ imageOk s.img s.orig K
  config : s.cfg.wf = true
  outputs : s.msg = [] ∧ s.exit = none ∧ s.halted = false ∧ s.hist = []
  others : s.regs = Regs.unset ∧ s.epc = [⟨.run, 0⟩] ∧ s.ram = [] ∧ s.queue = [] ∧
    (s.cfg.memcfg = .test → s.dev.array = [])

/-! ## Terminal outcomes (R228) -/

/-- The rows of R228's table. -/
inductive RunEnd where
  | unrecognised | aborted | upToDate | timeout | complete | verifyFailed
  deriving DecidableEq, Repr

/-- EXIT, HALTED, ERR and the last message of a row of R228's table. -/
def RunEnd.row (s : State) : RunEnd → Prop
  | .unrecognised => s.exit = some .one ∧ s.halted = false ∧ s.err = some .deviceNotRecognized ∧
      ∃ S, s.regs.S = some S ∧ s.msg.getLast? = some (.unrecognized S s.D)
  | .aborted => s.exit = some .one ∧ s.halted = false ∧ s.err = some .userAborted ∧ s.msg.getLast? = some .prompt
  | .upToDate => s.exit = some .zero ∧ s.halted = false ∧ s.err = none ∧ s.msg.getLast? = some .upToDate
  | .timeout => s.exit = none ∧ s.halted = true ∧
      (s.err = some .eraseTimeout ∨ s.err = some .programTimeout) ∧ s.msg.getLast? = some .corrupt
  | .complete => s.exit = none ∧ s.halted = true ∧ s.err = none ∧ s.msg.getLast? = some .complete
  | .verifyFailed => s.exit = none ∧ s.halted = true ∧ s.err = some .verifyFailed ∧
      s.msg.getLast? = some .verifyFailed

/-- A terminal outcome: a row of R228's table with no fault recorded, since a faulted run is never final (R228,
R263). -/
def RunEnd.holds (s : State) (e : RunEnd) : Prop := s.faults = [] ∧ e.row s

/-! ## Named assumptions (R137, R144, R163) -/

/-- What the operation in progress leaves at the address that its poll reads (R137): 0xFF, or the program result. -/
def State.awaited (s : State) : Option Byte :=
  match s.dev.mode with
  | .ebusy _ => some 0xFF
  | .pbusy pa pd => some (prog (s.arrayByte pa) pd)
  | .read | .u1 _ | .u2 _ | .id _ | .e1 | .e2 | .e3 | .p1 | .indet => none

/-- BUSY_NO_FALSE_MATCH of one step (R137): a status read made by the step from `s` to `t`, by whichever agent, does
not return the awaited byte. -/
def BusyNoFalseMatch (s t : State) : Prop :=
  ∀ e v, t.hist = s.hist ++ [e] → e.kind = .R → s.cfg.devAddr? e.addr ≠ none → s.awaited = some v → e.value ≠ v

/-- An infinite run of the machine. -/
def IsRun (r : Nat → State) : Prop := ∀ n, step (r n) = .next (r (n + 1))

/-- BUSY_NO_FALSE_MATCH of a run (R137): of every status read. -/
def NoFalseMatchRun (r : Nat → State) : Prop := ∀ n, BusyNoFalseMatch (r n) (r (n + 1))

/-- FAIR_TICK (R163): TICK takes infinitely many steps. -/
def FairTick (r : Nat → State) : Prop := ∀ n, ∃ m, n ≤ m ∧ (r m).nextMove = .tick

/-- An erase or program is in progress. -/
def State.busy (s : State) : Bool :=
  match s.dev.mode with
  | .ebusy _ | .pbusy _ _ => true
  | _ => false

/-- FAIR_COMPLETE (R144): a busy device eventually takes its completion step. -/
def FairComplete (r : Nat → State) : Prop :=
  ∀ n, (r n).busy = true → ∃ m, n ≤ m ∧ (r m).nextMove = .dev ∧ (r m).busy = true

/-! ## Addresses that a procedure reads or writes -/

/-- A host address below 1 MiB that reaches device address `a`. -/
def State.reaches (s : State) (p : Nat) (a : DevAddr) : Prop :=
  ∃ q, toPhys? p = some q ∧ s.cfg.devAddr? q = some a

/-- A read of `p` is performed, and the device accepts it if it gets it (R62, R122). -/
def State.readable (s : State) (p : Nat) : Prop :=
  ∃ q, toPhys? p = some q ∧ ∀ a, s.cfg.devAddr? q = some a → s.readAnswer a ≠ .unaccepted

/-- A read of `p` returns `v` and changes nothing but HIST: an array byte in READ mode (R123), the tick byte (R43), or
a byte of the RAM of MEMCFG = TEST (R70). -/
def State.shows (s : State) (p : Nat) (v : Byte) : Prop :=
  ∃ q, toPhys? p = some q ∧
    match s.cfg.devAddr? q with
    | some a => s.dev.mode = .read ∧ s.arrayByte a = v
    | none => (q = s.cfg.tickAddr ∧ s.tick = v) ∨ (q ≠ s.cfg.tickAddr ∧ s.cfg.memcfg = .test ∧ s.ramByte q = v)

/-- The window of segment `S` reaches the device at both unlock offsets (R63, R74, R121). -/
def State.window (s : State) (S : Seg) : Prop :=
  (∃ a, s.reaches (unlock1 S) a ∧ DevAddr.offset a = CMD_ADDR1) ∧
    ∃ a, s.reaches (unlock2 S) a ∧ DevAddr.offset a = CMD_ADDR2

/-- `D:0` and `D:1` reach the device at offsets 0 and 1 of a sector (R127). -/
def State.idSector (s : State) (D : Seg) : Prop :=
  (∃ a, s.reaches (physical D 0) a ∧ DevAddr.boff a = 0) ∧ ∃ a, s.reaches (physical D 1) a ∧ DevAddr.boff a = 1

/-- Every byte of image block `i` exists and its place in memory can be read, whatever answers there: the device, the
tick, another ROM or the RAM (R64, R70, R217). -/
def State.blockReadable (s : State) (i : Nat) : Prop :=
  ∀ b, b < SECTOR → s.readable (s.pbase i + b) ∧ ∃ w, s.imgByte? i b = some w

/-- Memory already holds image block `i` (R218). -/
def State.blockEqual (s : State) (i : Nat) : Prop :=
  ∀ b, b < SECTOR → ∃ v, s.shows (s.pbase i + b) v ∧ s.imgByte? i b = some v

/-- ENG may take a statement: no fault is recorded and the run has not ended (R41, R263). -/
def State.live (s : State) : Prop := s.faults = [] ∧ s.exit = none ∧ s.halted = false

/-- `l` is a list of reads of `p` by the engine. -/
def readsOf (p : Nat) (l : List BusEvent) : Prop :=
  ∀ e ∈ l, e.agent = .eng ∧ e.kind = .R ∧ e.addr.toNat = p

/-- `l` is a list of reads by the engine: no write and no completion. -/
def readsOnly (l : List BusEvent) : Prop := ∀ e ∈ l, e.agent = .eng ∧ e.kind = .R

/-- The engine's reads of `c` bytes in order from `base`, which gave the bytes `x`. -/
def readsFrom (base c : Nat) (x : Nat → Byte) : List BusEvent :=
  (List.range c).map fun j => ⟨.eng, .R, BitVec.ofNat 20 (base + j), x j⟩

/-- The reads of OVERLAP's scan (R215): offsets 0 and 1 of each probed segment, which gave the bytes `x` and `y`. -/
def probeReads (S : Seg) (probed : List Nat) (x y : Nat → Byte) : List BusEvent :=
  probed.flatMap fun k =>
    [⟨.eng, .R, BitVec.ofNat 20 ((S.toNat + 0x80 * k) * 16), x k⟩,
      ⟨.eng, .R, BitVec.ofNat 20 ((S.toNat + 0x80 * k) * 16 + 1), y k⟩]

/-- `t` is `s` after the engine's reads `l`, with the registers `g` and EPC `epc`: HIST has the reads, and nothing else
differs but the count of draws and, in ID mode, the stale count that reads use up (R73, R127). -/
def afterReads (s t : State) (l : List BusEvent) (g : Regs) (epc : List Frame) : Prop :=
  t = { s with dev := { s.dev with mode := t.dev.mode }, hist := s.hist ++ l, draws := t.draws, regs := g, epc := epc } ∧
    ((∀ n, s.dev.mode ≠ .id n) → t.dev = s.dev)

/-- The device accepts a cycle (R122). -/
def State.accepts (s : State) (c : Dcw) : Prop :=
  if c.wr then Dev.writeMode s.cfg s.dev.mode c.a c.v ≠ none else s.readAnswer c.a ≠ .unaccepted

/-- The physical address that the statement of `i` at the state's index stores to, if it stores (R182, R184, R185,
and for a device command the host address of its cycle). -/
def storedAt (i : Instr) (s : State) : Option Nat :=
  match i with
  | .detect S _ =>
      match s.stmt with
      | 1 | 3 | 9 => (operand? S s.regs.S).map unlock1
      | 2 => (operand? S s.regs.S).map unlock2
      | _ => none
  | .eraseSector S p =>
      match s.stmt with
      | 0 | 2 | 3 => (operand? S s.regs.S).map unlock1
      | 1 | 4 => (operand? S s.regs.S).map unlock2
      | 5 => some p
      | _ => none
  | .programByte S p _ =>
      match s.stmt with
      | 0 | 2 => (operand? S s.regs.S).map unlock1
      | 1 => (operand? S s.regs.S).map unlock2
      | 3 => some p
      | _ => none
  | i => (i.cycles[s.stmt]?).bind fun c => if c.wr then (s.cfg.hostAddr? c.a).map (·.toNat) else none

/-- `k` statements of one instruction, with no other step between them. -/
def execN (i : Instr) : Nat → State → Out
  | 0, s => .next s
  | k + 1, s =>
    match exec i s with
    | .next t => execN i k t
    | .fault r => .fault r
    | .refused r => .refused r

/-! ## Invariants -/

/-- The memories are in canonical form, the configuration is legal, and the busy registers name addresses the
part has (R23, R25, R63, R70, R92). -/
structure MemInv (s : State) : Prop where
  cfg : s.cfg.wf = true
  array : Memory.wf (blankByte s.cfg.memcfg) s.cfg.part.devSize s.dev.array
  ram : Memory.wf (blankByte .test) PHYS_SIZE s.ram
  busy : s.dev.mode.inPart s.cfg.part

/-- The device is in INDET exactly if DEV.fault is set, exactly if ProtocolViolation is recorded, and FAULTS has
no repeats (R27, R42, R139, R142). -/
structure FaultInv (s : State) : Prop where
  mode : s.dev.fault = true ↔ s.dev.mode = .indet
  recorded : s.dev.fault = true ↔ .protocolViolation ∈ s.faults
  nodup : s.faults.Nodup

/-- EPC is a stack of calls (R38). -/
def StackInv (s : State) : Prop := EpcWf s.epc

/-- In a run that entered at RUN every position of EPC fixes IF and what the device may be in the middle of, as long
as no fault is recorded (R186, R188, R189, R280, R291). -/
def CriticalInv (s : State) : Prop := s.faults = [] → Phase s.epc s.IF s.dev.mode

/-- The step from `s` to `t` writes nowhere but to the device. On real hardware every step does so (R65); under
MEMCFG = TEST a write elsewhere goes to the RAM (R70), and the device misses that cycle of its sequence. Log 35. -/
def WritesReachDevice (s t : State) : Prop :=
  ∀ e, t.hist = s.hist ++ [e] → e.kind = .W → s.cfg.devAddr? e.addr ≠ none

end Sys2Proof.Machine
end

