-- ==== Sys2Proof/Certificates/Slice0/Obligations.lean ====
section
/-! DEFINITION. The statements for the provers. Each docstring names the rules of spec/ it formalises. -/

open Sys2Proof Sys2Proof.Machine

/-! ## Encoding -/

/-- Decoding an encoded device command gives it back, in every mode that accepts the command, with every operand
at every value, and leaves the words behind it (R92, R93, R95, R96, R101). -/
def Obligations.DecodeOfEncode : Prop :=
  ∀ (i : Instr) (m : DevMode) (rest : List Dcw), i.acceptedIn m = true →
    decodeWords m (encode i ++ rest.map Dcw.bits) = .ok (i, rest)

/-- What decodes is exactly what its command's cycles are: no bit of a decoded stream is dropped, and a read is
decoded only in a mode that accepts it (R95, R97, R101). -/
def Obligations.EncodeOfDecode : Prop :=
  ∀ (m : DevMode) (cs rest : List Dcw) (i : Instr), decode m cs = .ok (i, rest) →
    i.cycles ++ rest = cs ∧ i.isCommand = true ∧
      (∀ c, i.cycles = [c] → c.wr = false → i.acceptedIn m = true)

/-- Words written out in 95_test_vectors.md section 2.1, and the table's numbers of SWID_ENTRY and SWID_EXIT. -/
def Obligations.DecodeSampleWords : Prop :=
  decodeWords .read [0x8D555AA, 0x8AAAA55, 0x8D55590] = .ok (.swidEntry 1 1 1, []) ∧
  decodeWords .read [0x9D555AA, 0x8AAAA55, 0x8D55590] = .ok (.swidEntry 3 1 1, []) ∧
  decodeWords (.id 0) [0x8D555F0] = .ok (.swidExit 1, []) ∧
  decodeWords (.id 0) [0x08000BF] = .ok (.swidRead 0x08000 0xBF, []) ∧
  decodeWords .read [0x08000BF] = .ok (.readArray 0x08000 0xBF, []) ∧
  decodeWords (.ebusy 8) [0x08000BF] = .ok (.statusRead 0x08000 0xBF, []) ∧
  decodeWords .read [0x8D555AA, 0x8AAAA55, 0x8D55580, 0x8D555AA, 0x8AAAA55, 0x8800030] =
    .ok (.sectorErase 1 1 1 1 1 8, []) ∧
  decodeWords .read [0x8D555AA, 0x8AAAA55, 0x8D55580, 0x8D555AA, 0x8AAAA55, 0x8800130] =
    .error (.eraseConfirm ⟨true, 0x08001, 0x30⟩) ∧
  decodeWords .read [0x8D555AA, 0x8AAAA55, 0x8D555A0, 0x8800012] = .ok (.byteProgram 1 1 1 0x08000 0x12, []) ∧
  decodeTableWord 84 0x85555AA82AAA558555590 = some (.swidEntry 0 0 0) ∧
  decodeTableWord 28 0x85555F0 = some (.swidExit 0)

/-! ## Steps -/

/-- When no fault is recorded, the run has not ended and ENG moves, a step executes the statement that the top
frame names (R12, R38). -/
def Obligations.StepExecutesTopFrame : Prop :=
  ∀ (s : State) (f : Frame) (rest : List Frame), s.live → s.nextMove = .eng → s.epc = f :: rest →
    step s = exec f.op s.moveTaken

/-- With no procedure running, a step of ENG fetches the device command at the head of the queue, decoded in the
device's mode, and executes its first cycle (R96; the queue is the model's own, log 10). -/
def Obligations.StepFetchesCommand : Prop :=
  ∀ (s : State) (i : Instr) (rest : List Dcw), s.live → s.nextMove = .eng → s.epc = [] →
    decodeWords s.dev.mode s.queue = .ok (i, rest) → i.wf s.cfg.part = true →
    step s = exec i { s.moveTaken with epc := [⟨i, 0⟩], queue := s.queue.drop i.cycles.length }

/-- Once a fault is recorded no agent takes another step, whichever would move (R263). -/
def Obligations.RecordedFaultStopsEveryAgent : Prop :=
  ∀ (s : State) (f : FaultKind) (fs : List FaultKind), s.faults = f :: fs → step s = .fault (.quiescent f)

/-- Every statement of every instruction answers a next state: the index is one of the procedure's, the image has
the byte that the three statements that use one compare with or program (COMPARE_BLOCK 2, FLASH 14, VERIFY 4), and the
host can reach the device address of a device command's cycle. A fault of the spec is taken as such a next state too (R38, R261, R263). -/
def Obligations.EveryStatementAnswers : Prop :=
  ∀ (i : Instr) (s : State), s.stmt < i.length →
    (∀ c, i.cycles[s.stmt]? = some c → s.cfg.hostAddr? c.a ≠ none) →
    (∀ k b, s.regs.b = some b →
      ((i = .compareBlock k ∧ s.stmt = 2) ∨
        (s.regs.i = some k ∧ ((i = .flash ∧ s.stmt = 14) ∨ (i = .verify ∧ s.stmt = 4)))) →
      s.imgByte? k b ≠ none) →
    ∃ t, exec i s = .next t

/-! ## Launch -/

/-- The value of every piece of state at launch, for every configuration and all launch inputs (R46, R290, R291); and
the launch of the next run: of all the state only the array persists, but for the sector or the byte whose erase or
program a power cycle cut off (R279, R295; under MEMCFG = TEST every run's array begins at 0xAA, R46, R70; that the
draws go on and the configuration stays is the model's choice, log 36). -/
def Obligations.LaunchState : Prop :=
  ∀ (cfg : Config) (array0 : List Host.Cell) (D : Seg) (img : List (List Byte)) (orig : Nat) (tick : Byte),
    let s := State.launch cfg array0 D img orig tick
    s.dev.mode = .read ∧ (cfg.memcfg = .real → s.dev.array = array0) ∧ s.dev.fault = false ∧ s.IF = true ∧
    s.D = D ∧ s.img = img ∧ s.NBLK = img.length ∧ s.orig = orig ∧ s.L = s.NBLK * 4096 ∧
    s.regs = Regs.unset ∧ s.epc = [⟨.run, 0⟩] ∧ s.msg = [] ∧ s.exit = none ∧ s.halted = false ∧
    s.err = none ∧ s.faults = [] ∧ s.tick = tick ∧ s.hist = [] ∧ s.cfg = cfg ∧
    (cfg.memcfg = .real → cfg.vendorId = 0xBF ∧ cfg.deviceId = cfg.part.code) ∧
    (cfg.memcfg = .test → (∀ a, s.arrayByte a = 0xAA) ∧ ∀ p, s.ramByte p = 0xAA) ∧
    ∀ last : State,
      last.nextRun D img orig tick =
        { State.launch last.cfg last.persisted D img orig tick with draws := last.draws + 1 } ∧
      (last.cfg.memcfg = .real → ∀ a : DevAddr,
        (∀ sec, last.dev.mode = .ebusy sec → DevAddr.sector a ≠ sec) → (∀ pa pd, last.dev.mode = .pbusy pa pd → a ≠ pa) →
        (last.nextRun D img orig tick).arrayByte a = last.arrayByte a)

/-- The state after reset is a launch with the inputs and OPEN parameters that the model chose (logs 2, 4, 5, 6: no rule
of the spec gives them), and it meets the launch premises of R292 and the four invariants. -/
def Obligations.ResetMeetsInvariants : Prop :=
  State.reset = State.launch mapC [] 0xC800 [List.replicate 4096 0x00] 4096 0x00 ∧
    LaunchPremises State.reset none ∧ MemInv State.reset ∧ FaultInv State.reset ∧ StackInv State.reset ∧
    CriticalInv State.reset

/-- Image conditioning meets the image contract (R211, R212), and rejects only what R212 rejects. -/
def Obligations.LoadMeetsImageContract : Prop :=
  ∀ (file : List Byte) (K : Option Nat), legalK K = true →
    (∀ l, load file K = .ok l → imageOk l.img l.orig K ∧
      (l.msg = [.padded] ↔ l.orig % 4096 ≠ 0) ∧ l.img.flatten.take l.orig = file.take l.orig) ∧
    (load file K = .error .imageRejected ↔ (file.take (loadLimit K)).length = 0 ∨
      (file.take (loadLimit K)).length % 2048 ≠ 0)

/-! ## Invariants that every step keeps -/

/-- Every step keeps the canonical form of the array and the RAM, the legality of the configuration, and the range
of the busy registers (R23, R25, R70, R92). -/
def Obligations.StepKeepsMemoryInvariant : Prop :=
  ∀ s t : State, MemInv s → step s = .next t → MemInv t

/-- Every step keeps: INDET, DEV.fault and a recorded ProtocolViolation go together, and FAULTS has no repeats
(R27, R42, R139, R142). -/
def Obligations.StepKeepsFaultInvariant : Prop :=
  ∀ s t : State, FaultInv s → step s = .next t → FaultInv t

/-- Every step keeps EPC a stack of calls with indices inside their procedures, and such a stack has at most 5
frames (R38). -/
def Obligations.StepKeepsCallStack : Prop :=
  (∀ s t : State, StackInv s → step s = .next t → StackInv t) ∧ ∀ s : State, StackInv s → s.epc.length ≤ 5

/-- Every step of a run that entered at RUN keeps the tie between EPC, IF and the device's mode: mid-sequence modes
and ID only while IF = 0, IF = 1 again at every return of DETECT and FLASH and at every HALT (R186, R188, R229,
R280). On real hardware this holds of every step; under MEMCFG = TEST of every step that does not write to the RAM
instead of the device, for there a sequence of which the device misses a cycle ends in another mode (log 35). -/
def Obligations.StepKeepsCriticalSection : Prop :=
  ∀ s t : State, CriticalInv s → step s = .next t → (s.cfg.memcfg = .real ∨ WritesReachDevice s t) → CriticalInv t

/-! ## What steps leave alone -/

/-- No step writes the configuration or a launch input (R35, R45). -/
def Obligations.StepKeepsConfigAndInputs : Prop :=
  ∀ s t : State, step s = .next t → t.cfg = s.cfg ∧ t.D = s.D ∧ t.img = s.img ∧ t.orig = s.orig

/-- HIST is only appended to, by at most one entry a step (R66, R67). -/
def Obligations.HistoryIsOnlyAppendedTo : Prop :=
  ∀ s t : State, step s = .next t → t.hist = s.hist ∨ ∃ e, t.hist = s.hist ++ [e]

/-- No instruction changes an array byte: only the device's completion steps write the array (R25, R138, R140). -/
def Obligations.ArrayChangesOnlyByCompletion : Prop :=
  (∀ (i : Instr) (s t : State), exec i s = .next t → t.dev.array = s.dev.array) ∧
    ∀ s t : State, step s = .next t → t.dev.array = s.dev.array ∨ (s.nextMove = .dev ∧ s.busy = true)

/-- Every byte of the RAM but the one the statement stores to reads as before, and so does every array byte; a
statement that stores nothing writes nothing to the bus (R65, R67, R70). -/
def Obligations.StoresOnlyAtStoredAddress : Prop :=
  ∀ (i : Instr) (s t : State), exec i s = .next t →
    (∀ a, t.arrayByte a = s.arrayByte a) ∧
    (∀ q : PhysAddr, storedAt i s ≠ some q.toNat → t.ramByte q = s.ramByte q) ∧
    (storedAt i s = none → t.hist = s.hist ∨ ∃ e, t.hist = s.hist ++ [e] ∧ e.kind = .R)

/-- Which procedure writes which engine register (R31's column "written by"; b, i and the counters besides). -/
def Obligations.RegisterWriters : Prop :=
  ∀ (i : Instr) (s t : State), exec i s = .next t →
    ((∀ D, i ≠ .cal D) → t.regs.T = s.regs.T ∧ t.regs.N = s.regs.N ∧ t.regs.t0 = s.regs.t0 ∧
      t.regs.t1 = s.regs.t1 ∧ t.regs.probe = s.regs.probe) ∧
    ((∀ D L, i ≠ .plan D L) → t.regs.S = s.regs.S) ∧
    ((∀ S D L, i ≠ .overlap S D L) → t.regs.OVL = s.regs.OVL ∧ t.regs.curr = s.regs.curr) ∧
    ((∀ S D, i ≠ .detect S D) → t.regs.VID = s.regs.VID ∧ t.regs.DID = s.regs.DID) ∧
    ((∀ V W, i ≠ .idDecode V W) → t.regs.PARTF = s.regs.PARTF) ∧
    (i ≠ .flash → t.regs.CNT = s.regs.CNT) ∧
    (i ≠ .verify → t.regs.VOK = s.regs.VOK) ∧
    ((∀ p v k, i ≠ .poll p v k) → (∀ p, i ≠ .waitErase p) → t.regs.PR = s.regs.PR) ∧
    ((∀ p v k, i ≠ .poll p v k) → t.regs.n = s.regs.n) ∧
    ((∀ p, i ≠ .waitErase p) → t.regs.j = s.regs.j) ∧
    (i ≠ .flash → i ≠ .verify → t.regs.i = s.regs.i) ∧
    (i ≠ .flash → i ≠ .verify → (∀ k, i ≠ .compareBlock k) → t.regs.b = s.regs.b) ∧
    (i ≠ .run → t.regs.ANS = s.regs.ANS) ∧
    ((∀ k, i ≠ .compareBlock k) → t.regs.equal = s.regs.equal) ∧
    ((∀ p v k, i ≠ .poll p v k) → t.regs.nMax = s.regs.nMax ∧ t.regs.r = s.regs.r) ∧
    ((∀ D, i ≠ .cal D) → t.regs.calP = s.regs.calP) ∧
    ((∀ D L, i ≠ .plan D L) → t.regs.dest = s.regs.dest ∧ t.regs.seq = s.regs.seq) ∧
    ((∀ S D L, i ≠ .overlap S D L) → t.regs.b0 = s.regs.b0 ∧ t.regs.b1 = s.regs.b1) ∧
    ((∀ S D, i ≠ .detect S D) → t.regs.rep = s.regs.rep)

/-- MSG and EXIT are written by RUN alone, HALTED by HALT alone, ERR by RUN and FLASH alone, IF by CS_ENTER and CS_EXIT
alone; MSG is only appended to, FAULTS only grows, and no instruction writes the launch inputs, the configuration or
the tick (R29, R35, R40, R41, R42, R43, R45, R260, R268). -/
def Obligations.OutputWriters : Prop :=
  ∀ (i : Instr) (s t : State), exec i s = .next t →
    (i ≠ .run → t.msg = s.msg ∧ t.exit = s.exit) ∧ (i ≠ .halt → t.halted = s.halted) ∧
    (i ≠ .run → i ≠ .flash → t.err = s.err) ∧ (i ≠ .csEnter → i ≠ .csExit → t.IF = s.IF) ∧
    (t.msg = s.msg ∨ ∃ m, t.msg = s.msg ++ [m]) ∧ s.faults ⊆ t.faults ∧
    t.D = s.D ∧ t.img = s.img ∧ t.orig = s.orig ∧ t.cfg = s.cfg ∧ t.tick = s.tick

/-- A device command leaves everything but the device's mode and fault, HIST, FAULTS, the count of draws and its own
frame (R40, R95): after an accepted cycle its frame is at the next cycle, or popped after the last, and FAULTS is as
before; after a violation EPC stays (R38, R139, R263). The frames under its own stay. -/
def Obligations.DeviceCommandFrame : Prop :=
  ∀ (i : Instr) (s t : State), i.isCommand = true → exec i s = .next t →
    t = { s with dev := { s.dev with mode := t.dev.mode, fault := t.dev.fault }, hist := t.hist,
                 faults := t.faults, draws := t.draws, epc := t.epc } ∧
    ∃ c, i.cycles[s.stmt]? = some c ∧
      (s.accepts c → t.faults = s.faults ∧ ∀ f rest, s.epc = f :: rest →
        t.epc = if f.idx + 1 < i.cycles.length then { f with idx := f.idx + 1 } :: rest else rest) ∧
      (¬ s.accepts c → .protocolViolation ∈ t.faults ∧ t.epc = s.epc)

/-! ## The device -/

/-- The acceptance table (R122): the writes and the reads each mode accepts, and no others; and the mode after each
accepted write (R124 to R126, R128 to R132, R134, R135, R142): an unlock pair begun in ID keeps base ID, from which
neither an erase nor a program is accepted (R143). -/
def Obligations.AcceptanceTable : Prop :=
  (∀ (c : Config) (m m' : DevMode) (a : DevAddr) (v : Byte), Dev.writeMode c m a v = some m' ↔
    (m = .read ∧ v = 0xAA ∧ DevAddr.offset a = 0x5555 ∧ m' = .u1 .read) ∨
    (∃ b, m = .u1 b ∧ v = 0x55 ∧ DevAddr.offset a = 0x2AAA ∧ m' = .u2 b) ∨
    (∃ b, m = .u2 b ∧ v = 0x90 ∧ DevAddr.offset a = 0x5555 ∧ m' = .id c.idStale) ∨
    (m = .u2 .read ∧ v = 0x80 ∧ DevAddr.offset a = 0x5555 ∧ m' = .e1) ∨
    (m = .u2 .read ∧ v = 0xA0 ∧ DevAddr.offset a = 0x5555 ∧ m' = .p1) ∨
    (∃ n, m = .id n ∧ v = 0xF0 ∧ DevAddr.offset a = 0x5555 ∧ m' = .read) ∨
    (∃ n, m = .id n ∧ v = 0xAA ∧ DevAddr.offset a = 0x5555 ∧ m' = .u1 .id) ∨
    (m = .e1 ∧ v = 0xAA ∧ DevAddr.offset a = 0x5555 ∧ m' = .e2) ∨
    (m = .e2 ∧ v = 0x55 ∧ DevAddr.offset a = 0x2AAA ∧ m' = .e3) ∨
    (m = .e3 ∧ v = 0x30 ∧ DevAddr.boff a = 0 ∧ m' = .ebusy (DevAddr.sector a)) ∨
    (m = .p1 ∧ m' = .pbusy a v) ∨ (m = .indet ∧ m' = .indet)) ∧
  (∀ (s : State) (a : DevAddr), s.readAnswer a ≠ .unaccepted ↔
    s.dev.mode = .read ∨ (∃ n, s.dev.mode = .id n) ∨ (∃ e, s.dev.mode = .ebusy e) ∨
      (∃ p d, s.dev.mode = .pbusy p d) ∨ s.dev.mode = .indet)

/-- An unaccepted cycle sends the device to INDET, sets DEV.fault and records ProtocolViolation; the cycle is in HIST,
a read with a draw. In INDET every write is absorbed with no effect but its entry in HIST, every read returns a draw,
and no completion is enabled, so nothing leaves INDET (R139, R142). -/
def Obligations.UnacceptedCycleFaults : Prop :=
  ∀ (s : State) (ag : Agent) (p : Nat) (q : PhysAddr) (a : DevAddr),
    toPhys? p = some q → s.cfg.devAddr? q = some a →
    (∀ v, Dev.writeMode s.cfg s.dev.mode a v = none →
      s.busWrite ag p v = .stop { s with
        dev := { s.dev with mode := .indet, fault := true }, hist := s.hist ++ [⟨ag, .W, q, v⟩],
        faults := if .protocolViolation ∈ s.faults then s.faults else s.faults ++ [.protocolViolation] }) ∧
    (s.readAnswer a = .unaccepted →
      s.busRead ag p = .stop { s with
        dev := { s.dev with mode := .indet, fault := true }, hist := s.hist ++ [⟨ag, .R, q, s.fresh⟩],
        draws := s.draws + 1,
        faults := if .protocolViolation ∈ s.faults then s.faults else s.faults ++ [.protocolViolation] }) ∧
    (s.dev.mode = .indet →
      (∀ v, s.busWrite ag p v = .ok v { s with hist := s.hist ++ [⟨ag, .W, q, v⟩] }) ∧
      s.busRead ag p =
        .ok s.fresh { s with hist := s.hist ++ [⟨ag, .R, q, s.fresh⟩], draws := s.draws + 1 } ∧
      s.complete = s)

/-- ERASE_COMPLETE sets exactly the bytes of the sector to 0xFF, returns the device to READ and appends its entry
(R138). -/
def Obligations.EraseCompletes : Prop :=
  ∀ (s : State) (sec : Sector), s.dev.mode = .ebusy sec →
    (∀ a, s.complete.arrayByte a = if DevAddr.sector a = sec then 0xFF else s.arrayByte a) ∧
    s.complete = { s with dev := { s.dev with mode := .read, array := s.complete.dev.array },
                          hist := s.hist ++ [⟨.dev, .C, BitVec.ofNat 20 (sec.toNat * 4096), 0⟩] }

/-- PROGRAM_COMPLETE writes PROG(old, v) to exactly one byte, returns the device to READ and appends its entry
(R140, R141). The case old AND v, of a byte that is not 0xFF, rests on log 30: R141 marks it '[from general knowledge,
not in source]'. -/
def Obligations.ProgramCompletes : Prop :=
  ∀ (s : State) (pa : DevAddr) (pd : Byte), s.dev.mode = .pbusy pa pd →
    (∀ a, s.complete.arrayByte a =
      if a = pa then (if s.arrayByte pa = 0xFF then pd else s.arrayByte pa &&& pd) else s.arrayByte a) ∧
    s.complete = { s with dev := { s.dev with mode := .read, array := s.complete.dev.array },
                          hist := s.hist ++ [⟨.dev, .C, BitVec.ofNat 20 pa.toNat, 0⟩] }

/-- A window at a segment that is a multiple of 0x800 works as a command window wherever it reaches the device, and
`D:0` and `D:1` of a legal destination are the first two bytes of a sector (R63, R74, R121, R127). -/
def Obligations.AlignedSegmentsReachCommandOffsets : Prop :=
  ∀ s : State, s.cfg.wf = true →
    (∀ S : Seg, S.toNat % 0x800 = 0 → (∃ a, s.reaches (unlock1 S) a) → (∃ a, s.reaches (unlock2 S) a) → s.window S) ∧
    (∀ D : Seg, legalD D = true → (∃ a, s.reaches (physical D 0) a) → s.idSector D)

/-! ## Device commands -/

/-- READ_ARRAY in READ mode returns the array byte and changes no state but HIST (R123). -/
def Obligations.ReadArrayReturnsByte : Prop :=
  ∀ (s : State) (a : DevAddr) (v : Byte) (p : PhysAddr) (rest : List Frame),
    s.epc = ⟨.readArray a v, 0⟩ :: rest → s.cfg.hostAddr? a = some p → s.dev.mode = .read →
    exec (.readArray a v) s =
      .next { s with hist := s.hist ++ [⟨.eng, .R, p, s.arrayByte a⟩], epc := rest }

/-- SWID_READ in ID mode: a draw that uses up one stale count, else VENDOR_ID at offset 0, DEVICE_ID at offset 1, and
a draw elsewhere; the mode stays ID (R26, R127). -/
def Obligations.SwidReadReturnsIdBytes : Prop :=
  ∀ (s : State) (a : DevAddr) (v : Byte) (p : PhysAddr) (n : Nat) (rest : List Frame),
    s.epc = ⟨.swidRead a v, 0⟩ :: rest → s.cfg.hostAddr? a = some p → s.dev.mode = .id n →
    exec (.swidRead a v) s =
      if 0 < n then
        .next { s with dev := { s.dev with mode := .id (n - 1) }, draws := s.draws + 1,
                       hist := s.hist ++ [⟨.eng, .R, p, s.fresh⟩], epc := rest }
      else if DevAddr.boff a = 0 then
        .next { s with hist := s.hist ++ [⟨.eng, .R, p, s.cfg.vendorId⟩], epc := rest }
      else if DevAddr.boff a = 1 then
        .next { s with hist := s.hist ++ [⟨.eng, .R, p, s.cfg.deviceId⟩], epc := rest }
      else
        .next { s with draws := s.draws + 1, hist := s.hist ++ [⟨.eng, .R, p, s.fresh⟩], epc := rest }

/-- STATUS_READ in EBUSY or PBUSY returns a draw, whatever the address, and changes no state of the device (R137). -/
def Obligations.StatusReadReturnsDraw : Prop :=
  ∀ (s : State) (a : DevAddr) (v : Byte) (p : PhysAddr) (rest : List Frame),
    s.epc = ⟨.statusRead a v, 0⟩ :: rest → s.cfg.hostAddr? a = some p → s.busy = true →
    exec (.statusRead a v) s =
      .next { s with draws := s.draws + 1, hist := s.hist ++ [⟨.eng, .R, p, s.fresh⟩], epc := rest }

/-- SWID_ENTRY from READ or from ID: three accepted cycles, ID mode, the stale count at ID_STALE (R124, R125,
R126). -/
def Obligations.SwidEntryEntersId : Prop :=
  ∀ (s : State) (h1 h2 h3 : HighBits) (p1 p2 p3 : PhysAddr) (rest : List Frame),
    s.epc = ⟨.swidEntry h1 h2 h3, 0⟩ :: rest →
    s.cfg.hostAddr? (DevAddr.ofCommand h1 0x5555) = some p1 →
    s.cfg.hostAddr? (DevAddr.ofCommand h2 0x2AAA) = some p2 →
    s.cfg.hostAddr? (DevAddr.ofCommand h3 0x5555) = some p3 →
    (s.dev.mode = .read ∨ ∃ n, s.dev.mode = .id n) →
    execN (.swidEntry h1 h2 h3) 3 s =
      .next { s with dev := { s.dev with mode := .id s.cfg.idStale },
                     hist := s.hist ++ [⟨.eng, .W, p1, 0xAA⟩, ⟨.eng, .W, p2, 0x55⟩, ⟨.eng, .W, p3, 0x90⟩],
                     epc := rest }

/-- SWID_EXIT: from ID the device is in READ; from READ the write is not accepted and is a ProtocolViolation (R97,
R122, R128, R139). -/
def Obligations.SwidExitReturnsToRead : Prop :=
  ∀ (s : State) (h : HighBits) (p : PhysAddr) (rest : List Frame),
    s.epc = ⟨.swidExit h, 0⟩ :: rest → s.cfg.hostAddr? (DevAddr.ofCommand h 0x5555) = some p →
    (∀ n, s.dev.mode = .id n →
      exec (.swidExit h) s =
        .next { s with dev := { s.dev with mode := .read }, hist := s.hist ++ [⟨.eng, .W, p, 0xF0⟩],
                       epc := rest }) ∧
    (s.dev.mode = .read → s.faults = [] →
      exec (.swidExit h) s =
        .next { s with dev := { s.dev with mode := .indet, fault := true },
                       hist := s.hist ++ [⟨.eng, .W, p, 0xF0⟩], faults := [.protocolViolation] })

/-- SECTOR_ERASE from READ: six accepted cycles, then EBUSY with the sector of the sixth (R124, R125, R129 to R133). -/
def Obligations.SectorEraseStartsErase : Prop :=
  ∀ (s : State) (h1 h2 h3 h4 h5 : HighBits) (sec : Sector) (p1 p2 p3 p4 p5 p6 : PhysAddr) (rest : List Frame),
    s.epc = ⟨.sectorErase h1 h2 h3 h4 h5 sec, 0⟩ :: rest →
    s.cfg.hostAddr? (DevAddr.ofCommand h1 0x5555) = some p1 →
    s.cfg.hostAddr? (DevAddr.ofCommand h2 0x2AAA) = some p2 →
    s.cfg.hostAddr? (DevAddr.ofCommand h3 0x5555) = some p3 →
    s.cfg.hostAddr? (DevAddr.ofCommand h4 0x5555) = some p4 →
    s.cfg.hostAddr? (DevAddr.ofCommand h5 0x2AAA) = some p5 →
    s.cfg.hostAddr? (DevAddr.ofSector sec 0) = some p6 →
    s.dev.mode = .read →
    execN (.sectorErase h1 h2 h3 h4 h5 sec) 6 s =
      .next { s with dev := { s.dev with mode := .ebusy sec },
                     hist := s.hist ++ [⟨.eng, .W, p1, 0xAA⟩, ⟨.eng, .W, p2, 0x55⟩, ⟨.eng, .W, p3, 0x80⟩,
                       ⟨.eng, .W, p4, 0xAA⟩, ⟨.eng, .W, p5, 0x55⟩, ⟨.eng, .W, p6, 0x30⟩],
                     epc := rest }

/-- BYTE_PROGRAM from READ: four accepted cycles, then PBUSY with the address and the data of the fourth (R124, R125,
R134, R135, R136). -/
def Obligations.ByteProgramStartsProgram : Prop :=
  ∀ (s : State) (h1 h2 h3 : HighBits) (a : DevAddr) (d : Byte) (p1 p2 p3 p4 : PhysAddr) (rest : List Frame),
    s.epc = ⟨.byteProgram h1 h2 h3 a d, 0⟩ :: rest →
    s.cfg.hostAddr? (DevAddr.ofCommand h1 0x5555) = some p1 →
    s.cfg.hostAddr? (DevAddr.ofCommand h2 0x2AAA) = some p2 →
    s.cfg.hostAddr? (DevAddr.ofCommand h3 0x5555) = some p3 →
    s.cfg.hostAddr? a = some p4 →
    s.dev.mode = .read →
    execN (.byteProgram h1 h2 h3 a d) 4 s =
      .next { s with dev := { s.dev with mode := .pbusy a d },
                     hist := s.hist ++ [⟨.eng, .W, p1, 0xAA⟩, ⟨.eng, .W, p2, 0x55⟩, ⟨.eng, .W, p3, 0xA0⟩,
                       ⟨.eng, .W, p4, d⟩],
                     epc := rest }

/-! ## Timing arbiter -/

/-- POLL makes at most n_max reads, all of p, returns TRUE at the first matching read and FALSE after n_max reads
without one, whatever an accepting device answers; n_max is k, or what POLL_ZERO says for k = 0 (R160). -/
def Obligations.PollIsBounded : Prop :=
  ∀ (s : State) (p : Nat) (v : Byte) (k : Count) (rest : List Frame),
    s.epc = ⟨.poll p v k, 0⟩ :: rest → s.readable p →
    ∃ m t l, execN (.poll p v k) m s = .next t ∧ t.epc = rest ∧ t.hist = s.hist ++ l ∧ readsOf p l ∧
      l.length ≤ (if k = 0 then (if s.cfg.pollZero = .wrap then 65536 else 0) else k.toNat) ∧
      ((t.regs.PR = some true ∧ ∃ l' e, l = l' ++ [e] ∧ e.value = v ∧ ∀ x ∈ l', x.value ≠ v) ∨
        (t.regs.PR = some false ∧ (∀ x ∈ l, x.value ≠ v) ∧
          l.length = (if k = 0 then (if s.cfg.pollZero = .wrap then 65536 else 0) else k.toNat))) ∧
      t.faults = s.faults ∧ t.IF = s.IF ∧ t.dev.array = s.dev.array ∧
      t.regs = { s.regs with PR := t.regs.PR, n := t.regs.n, nMax := t.regs.nMax, r := t.regs.r }

/-- CAL under MEMCFG = TEST sets T to the sentinel with no bus cycle. Under REAL it begins with p = D << 4, `probe` the
complement of the byte read at p, and t0 the tick byte read; it reads the tick byte again while it equals t0, and then
sets N to 0; and with the tick advancing once before its second sample and once before the first loop test, it sets T
to 0 (R162, R167). -/
def Obligations.CalSetsT : Prop :=
  ∀ (s : State) (D : Operand Seg) (rest : List Frame),
    (s.epc = ⟨.cal D, 0⟩ :: rest → s.cfg.memcfg = .test →
      execN (.cal D) 2 s =
        .next { s with regs := { s.regs with T := some s.cfg.calSentinel }, epc := rest }) ∧
    (∀ d, s.epc = ⟨.cal D, 0⟩ :: rest → s.cfg.memcfg = .real → s.live → s.cfg.wf = true →
      operand? D (some s.D) = some d → s.readable (physical d 0) →
      (∃ t x, engRun 4 s = .next t ∧
        afterReads s t [⟨.eng, .R, BitVec.ofNat 20 (d.toNat * 16), x⟩, ⟨.eng, .R, s.cfg.tickAddr, s.tick⟩]
          { s.regs with calP := some (d.toNat * 16), probe := some (x ^^^ 0xFF), t0 := some s.tick }
          (⟨.cal D, 4⟩ :: rest) ∧
        ∀ v, s.shows (d.toNat * 16) v → x = v) ∧
      ∃ t, movesRun [.eng, .eng, .eng, .eng, .tick, .eng, .eng, .eng, .tick, .eng, .eng] s = .next t ∧
        t.regs.T = some 0 ∧ t.epc = rest ∧ t.faults = [] ∧ t.dev.array = s.dev.array ∧
        t.hist.length = s.hist.length + 4) ∧
    (∀ t0, s.epc = ⟨.cal D, 4⟩ :: rest → s.cfg.memcfg = .real → s.live → s.cfg.wf = true → s.regs.t0 = some t0 →
      (s.tick = t0 → engRun 2 s = .next { s with
        hist := s.hist ++ [⟨.eng, .R, s.cfg.tickAddr, s.tick⟩], regs := { s.regs with t1 := some s.tick },
        epc := ⟨.cal D, 4⟩ :: rest }) ∧
      (s.tick ≠ t0 → engRun 3 s = .next { s with
        hist := s.hist ++ [⟨.eng, .R, s.cfg.tickAddr, s.tick⟩],
        regs := { s.regs with t1 := some s.tick, N := some 0 }, epc := ⟨.cal D, 7⟩ :: rest }))

/-- One round of CAL's loop while the tick does not advance: one read of the tick byte, then one poll of p for `probe`,
of 256 tries at most, which ends at the first match or after 256 reads, and N one higher, saturating at 0xFFFF; the
round after the tick has advanced sets T to N (R162). That N, t0, t1, probe and CAL's p keep their values over the
return is the model's choice, log 34; under MEMCFG = TEST, where CAL never comes here, that the tick byte answers at
TICK_ADDR is log 18. -/
def Obligations.CalCountsRounds : Prop :=
  ∀ (s : State) (D : Operand Seg) (rest : List Frame) (p N : Nat) (t1 probe : Byte),
    s.epc = ⟨.cal D, 7⟩ :: rest → s.live → s.cfg.devAddr? s.cfg.tickAddr = none →
    s.regs.calP = some p → s.readable p → s.regs.probe = some probe → s.regs.t1 = some t1 → s.regs.N = some N →
    (s.tick = t1 → ∃ m t l, engRun m s = .next t ∧ t.epc = ⟨.cal D, 7⟩ :: rest ∧
      t.regs = { s.regs with N := some (min (N + 1) 0xFFFF), PR := t.regs.PR, n := t.regs.n, nMax := t.regs.nMax,
                             r := t.regs.r } ∧
      t.hist = s.hist ++ ⟨.eng, .R, s.cfg.tickAddr, s.tick⟩ :: l ∧ readsOf p l ∧ l.length ≤ 256 ∧
      ((t.regs.PR = some true ∧ ∃ l' e, l = l' ++ [e] ∧ e.value = probe ∧ ∀ x ∈ l', x.value ≠ probe) ∨
        (t.regs.PR = some false ∧ l.length = 256 ∧ ∀ x ∈ l, x.value ≠ probe)) ∧
      t.faults = [] ∧ t.IF = s.IF ∧ t.dev.array = s.dev.array) ∧
    (s.tick ≠ t1 → engRun 2 s = .next { s with
        hist := s.hist ++ [⟨.eng, .R, s.cfg.tickAddr, s.tick⟩],
        regs := { s.regs with T := some (BitVec.ofNat 16 N) }, epc := rest })

/-- WAIT_PROGRAM is one unit: TRUE at the first read that returns v, FALSE after the poll's bound for T (R164). -/
def Obligations.WaitProgramIsOneUnit : Prop :=
  ∀ (s : State) (p : Nat) (v : Byte) (T : Count) (rest : List Frame),
    s.epc = ⟨.waitProgram p v, 0⟩ :: rest → s.live → s.regs.T = some T → s.readable p →
    exec (.waitProgram p v) s = .next { s with epc := ⟨.poll p v T, 0⟩ :: ⟨.waitProgram p v, 1⟩ :: rest } ∧
    ∃ m t l, engRun m s = .next t ∧ t.epc = rest ∧ t.hist = s.hist ++ l ∧ readsOf p l ∧
      l.length ≤ pollBound s.cfg T ∧
      ((t.regs.PR = some true ∧ ∃ l' e, l = l' ++ [e] ∧ e.value = v ∧ ∀ x ∈ l', x.value ≠ v) ∨
        (t.regs.PR = some false ∧ l.length = pollBound s.cfg T ∧ ∀ x ∈ l, x.value ≠ v)) ∧
      t.faults = [] ∧ t.IF = s.IF ∧ t.regs.T = s.regs.T ∧ t.dev.array = s.dev.array

/-- WAIT_ERASE polls at most 1163 times, at most 1163 × the poll's bound reads in all, and returns at the first 0xFF
read; it returns FALSE only after all of them without one (R165). -/
def Obligations.WaitEraseIsBounded : Prop :=
  ∀ (s : State) (p : Nat) (T : Count) (rest : List Frame),
    s.epc = ⟨.waitErase p, 0⟩ :: rest → s.live → s.regs.T = some T → s.readable p →
    exec (.waitErase p) s =
      .next { s with regs := { s.regs with j := some 0 }, epc := ⟨.waitErase p, 1⟩ :: rest } ∧
    ∃ m t l, engRun m s = .next t ∧ t.epc = rest ∧ t.hist = s.hist ++ l ∧ readsOf p l ∧
      l.length ≤ 1163 * pollBound s.cfg T ∧
      ((t.regs.PR = some true ∧ ∃ l' e, l = l' ++ [e] ∧ e.value = 0xFF ∧ ∀ x ∈ l', x.value ≠ 0xFF) ∨
        (t.regs.PR = some false ∧ l.length = 1163 * pollBound s.cfg T ∧ ∀ x ∈ l, x.value ≠ 0xFF)) ∧
      t.faults = [] ∧ t.IF = s.IF ∧ t.regs.T = s.regs.T ∧ t.dev.array = s.dev.array

/-- While the device is busy, a step in which a poll reads it is a status read: it answers, leaves the device as it is,
and under BUSY_NO_FALSE_MATCH of that step the try for what the operation will leave does not match, so the poll goes
on (R137, R160, R189). -/
def Obligations.BusyPollDoesNotMatch : Prop :=
  ∀ (s : State) (p : Nat) (v : Byte) (k : Count) (a : DevAddr) (n : Nat) (rest : List Frame),
    s.live → s.nextMove = .eng → s.epc = ⟨.poll p v k, 3⟩ :: rest → s.reaches p a → s.regs.n = some n →
    s.awaited = some v →
    ∃ t x, step s = .next t ∧ t.hist = s.hist ++ [⟨.eng, .R, BitVec.ofNat 20 p, x⟩] ∧ t.dev = s.dev ∧
      (BusyNoFalseMatch s t → x ≠ v ∧ ∃ u, engRun 2 t = .next u ∧ u.epc = ⟨.poll p v k, 2⟩ :: rest ∧
        u.regs.n = some (n + 1) ∧ u.regs.PR = s.regs.PR ∧ u.dev = s.dev)

/-! ## Command sequences -/

/-- CS_ENTER clears IF and CS_EXIT sets it, whatever it was, with no depth count; nothing else changes but the return.
From then on the ISR agent takes no step, or may read any address (R180, R181). -/
def Obligations.CriticalSectionOpsWriteIF : Prop :=
  ∀ (s : State) (rest : List Frame),
    (s.epc = ⟨.csEnter, 0⟩ :: rest → exec .csEnter s = .next { s with IF := false, epc := rest } ∧
      ∀ p, isrStep p { s with IF := false, epc := rest } = .next { s with IF := false, epc := rest }) ∧
    (s.epc = ⟨.csExit, 0⟩ :: rest → exec .csExit s = .next { s with IF := true, epc := rest } ∧
      ∀ p, ∃ t v, isrStep p { s with IF := true, epc := rest } = .next t ∧
        t.hist = s.hist ++ [⟨.isr, .R, p, v⟩])

/-- DETECT from READ or ID with a working window and more reads of D:0 than stale ones: VID and DID are the device's
identification bytes, the device is back in READ, IF = 1, and ID_READS_DEST0 + 5 cycles were made (R182, R189). -/
def Obligations.DetectReadsIdBytes : Prop :=
  ∀ (s : State) (S D : Operand Seg) (S' D' : Seg) (rest : List Frame),
    s.epc = ⟨.detect S D, 0⟩ :: rest → s.live → operand? S s.regs.S = some S' → operand? D (some s.D) = some D' →
    s.window S' → s.idSector D' → (s.dev.mode = .read ∨ ∃ n, s.dev.mode = .id n) → s.cfg.idStale < s.cfg.idReads →
    exec (.detect S D) s = .next { s with epc := ⟨.csEnter, 0⟩ :: ⟨.detect S D, 1⟩ :: rest } ∧
    ∃ m t, engRun m s = .next t ∧ t.epc = rest ∧ t.regs.VID = some s.cfg.vendorId ∧
      t.regs.DID = some s.cfg.deviceId ∧ t.dev = { s.dev with mode := .read } ∧ t.IF = true ∧ t.faults = [] ∧
      t.regs = { s.regs with VID := t.regs.VID, DID := t.regs.DID, rep := t.regs.rep } ∧
      t.hist.length = s.hist.length + s.cfg.idReads + 5

/-- ID_DECODE: the part of the table, or NONE; nothing else changes. With VID or DID unset, UnsetRegister and no other
effect (R2, R183, R262; that VID is named where both are unset is the model's choice, log 33). -/
def Obligations.IdDecodeSelectsPart : Prop :=
  ∀ (s : State) (V W : Operand Byte) (rest : List Frame), s.epc = ⟨.idDecode V W, 0⟩ :: rest →
    (∀ vid did, operand? V s.regs.VID = some vid → operand? W s.regs.DID = some did →
      ∃ m, execN (.idDecode V W) m s = .next { s with
        regs := { s.regs with PARTF := some (
          if vid = 0xBF ∧ did = 0xB4 then .known .SST39SF512
          else if vid = 0xBF ∧ did = 0xB5 then .known .SST39SF010
          else if vid = 0xBF ∧ did = 0xB6 then .known .SST39SF020
          else if vid = 0xBF ∧ did = 0xB7 then .known .SST39SF040
          else .none) },
        epc := rest }) ∧
    (operand? V s.regs.VID = none →
      exec (.idDecode V W) s = .next (s.raise (.unsetRegister .VID))) ∧
    (operand? V s.regs.VID ≠ none → operand? W s.regs.DID = none →
      exec (.idDecode V W) s = .next (s.raise (.unsetRegister .DID)))

/-- ERASE_SECTOR in the critical section from READ: its six writes back to back, the device in EBUSY, WAIT_ERASE
called; with the completion before the first poll read it returns TRUE with exactly the sector erased (R184, R187,
R138). When WAIT_ERASE is back, it returns that result, TRUE or FALSE: PR as it is, the frame popped, nothing else
changed (R184, R189). -/
def Obligations.EraseSectorErases : Prop :=
  ∀ (s : State) (S : Operand Seg) (p : Nat) (rest : List Frame),
    (∀ (S' : Seg) (a : DevAddr), s.epc = ⟨.eraseSector S p, 0⟩ :: rest → s.IF = false → s.dev.mode = .read →
      operand? S s.regs.S = some S' → s.window S' → s.reaches p a → DevAddr.boff a = 0 →
      execN (.eraseSector S p) 7 s = .next { s with
        dev := { s.dev with mode := .ebusy (DevAddr.sector a) },
        hist := s.hist ++ [⟨.eng, .W, BitVec.ofNat 20 (unlock1 S'), 0xAA⟩,
          ⟨.eng, .W, BitVec.ofNat 20 (unlock2 S'), 0x55⟩, ⟨.eng, .W, BitVec.ofNat 20 (unlock1 S'), 0x80⟩,
          ⟨.eng, .W, BitVec.ofNat 20 (unlock1 S'), 0xAA⟩, ⟨.eng, .W, BitVec.ofNat 20 (unlock2 S'), 0x55⟩,
          ⟨.eng, .W, BitVec.ofNat 20 p, 0x30⟩],
        epc := ⟨.waitErase p, 0⟩ :: ⟨.eraseSector S p, 7⟩ :: rest } ∧
      (∀ T, s.live → s.regs.T = some T → 0 < pollBound s.cfg T →
        ∃ n t, movesRun (List.replicate 7 .eng ++ .dev :: List.replicate n .eng) s = .next t ∧ t.epc = rest ∧
          t.regs.PR = some true ∧ t.dev.mode = .read ∧ t.faults = [] ∧ t.IF = false ∧
          ∀ x, t.arrayByte x = if DevAddr.sector x = DevAddr.sector a then 0xFF else s.arrayByte x)) ∧
    (s.epc = ⟨.eraseSector S p, 7⟩ :: rest → exec (.eraseSector S p) s = .next { s with epc := rest })

/-- PROGRAM_BYTE in the critical section from READ: its four writes back to back, the device in PBUSY, WAIT_PROGRAM
called; with the completion before the first poll read, and where PROG gives the byte asked for, it returns TRUE with
exactly that byte programmed (R185, R187, R189, R140). When WAIT_PROGRAM is back, it returns that result, TRUE or
FALSE: PR as it is, the frame popped, nothing else changed (R185, R189). -/
def Obligations.ProgramBytePrograms : Prop :=
  ∀ (s : State) (S : Operand Seg) (p : Nat) (v : Byte) (rest : List Frame),
    (∀ (S' : Seg) (a : DevAddr), s.epc = ⟨.programByte S p v, 0⟩ :: rest → s.IF = false → s.dev.mode = .read →
      operand? S s.regs.S = some S' → s.window S' → s.reaches p a →
      execN (.programByte S p v) 5 s = .next { s with
        dev := { s.dev with mode := .pbusy a v },
        hist := s.hist ++ [⟨.eng, .W, BitVec.ofNat 20 (unlock1 S'), 0xAA⟩,
          ⟨.eng, .W, BitVec.ofNat 20 (unlock2 S'), 0x55⟩, ⟨.eng, .W, BitVec.ofNat 20 (unlock1 S'), 0xA0⟩,
          ⟨.eng, .W, BitVec.ofNat 20 p, v⟩],
        epc := ⟨.waitProgram p v, 0⟩ :: ⟨.programByte S p v, 5⟩ :: rest } ∧
      (∀ T, s.live → s.regs.T = some T → 0 < pollBound s.cfg T → prog (s.arrayByte a) v = v →
        ∃ n t, movesRun (List.replicate 5 .eng ++ .dev :: List.replicate n .eng) s = .next t ∧ t.epc = rest ∧
          t.regs.PR = some true ∧ t.dev.mode = .read ∧ t.faults = [] ∧ t.IF = false ∧
          ∀ x, t.arrayByte x = if x = a then v else s.arrayByte x)) ∧
    (s.epc = ⟨.programByte S p v, 5⟩ :: rest → exec (.programByte S p v) s = .next { s with epc := rest })

/-! ## Planner -/

/-- PLAN: floor to 32 KiB, rounded up if the next window up lies wholly inside the destination; S is that address's
segment, wherever it is one of 16 bits, and only S and PLAN's locals change (R213). That the locals dest and seq keep
their values over the return is the model's choice, log 34. -/
def Obligations.PlanComputesWindow : Prop :=
  ∀ (s : State) (D : Operand Seg) (L : Operand Nat) (D' : Seg) (L' : Nat) (rest : List Frame),
    s.epc = ⟨.plan D L, 0⟩ :: rest → operand? D (some s.D) = some D' → operand? L (some s.L) = some L' →
    let dest := D'.toNat * 16
    let low := dest - dest % 0x8000
    let seq := if low < dest ∧ low + 0x10000 ≤ dest + L' then low + 0x8000 else low
    ∃ m S', execN (.plan D L) m s = .next { s with
      regs := { s.regs with dest := some dest, seq := some seq, S := some S' }, epc := rest } ∧
      (seq < 0x100000 → S'.toNat = seq / 16)

/-- What PLAN computes for a legal destination: a multiple of 0x800, and either the floor (S ≤ D, D − S < 0x800) or a
window above D that lies wholly inside the destination (R214). -/
def Obligations.PlanIsAligned : Prop :=
  ∀ (D : Seg) (L : Nat), legalD D = true →
    let dest := physical D 0
    let low := planFloor dest
    let S := planSegment (if planRoundsUp dest low L then low + WINDOW else low)
    S.toNat % 0x800 = 0 ∧
      ((S.toNat ≤ D.toNat ∧ D.toNat - S.toNat < 0x800) ∨
        (D.toNat < S.toNat ∧ physical S 0 + 0x8000 ≤ physical D 0 + L))

/-- OVERLAP probes every segment of the window outside the destination, two reads each in order, whatever answers
there, and sets OVL exactly if one of the pairs read has 0x55 at offset 0 or 0xFF at offset 1; nothing changes but OVL
and the locals (R64, R215, R216). Where a place shows a byte (`State.shows`), that is the byte read. -/
def Obligations.OverlapScansWindow : Prop :=
  ∀ (s : State) (S D : Operand Seg) (L : Operand Nat) (S' D' : Seg) (L' : Nat) (rest : List Frame),
    s.epc = ⟨.overlap S D L, 0⟩ :: rest → operand? S s.regs.S = some S' → operand? D (some s.D) = some D' →
    operand? L (some s.L) = some L' →
    let probed := (List.range 16).filter fun k =>
      !decide (D'.toNat ≤ S'.toNat + 0x80 * k ∧ S'.toNat + 0x80 * k < D'.toNat + L' / 16)
    (∀ k ∈ probed, s.readable ((S'.toNat + 0x80 * k) * 16) ∧ s.readable ((S'.toNat + 0x80 * k) * 16 + 1)) →
    ∃ m t x y, execN (.overlap S D L) m s = .next t ∧
      afterReads s t (probeReads S' probed x y)
        { s.regs with OVL := some (decide (∃ k ∈ probed, x k = 0x55 ∨ y k = 0xFF)), curr := t.regs.curr,
                      b0 := t.regs.b0, b1 := t.regs.b1 } rest ∧
      ∀ k ∈ probed, ∀ v, (s.shows ((S'.toNat + 0x80 * k) * 16) v → x k = v) ∧
        (s.shows ((S'.toNat + 0x80 * k) * 16 + 1) v → y k = v)

/-! ## Workflow -/

/-- COMPARE_BLOCK reads the block's place byte by byte, whatever answers there, up to the first byte that differs from
the image's: `equal` is 1 exactly if all 4096 bytes read are the image's; nothing changes but b and equal (R64, R217,
R218). Where no read can change what the place shows, `equal` is 1 exactly if memory holds the block. -/
def Obligations.CompareBlockCompares : Prop :=
  ∀ (s : State) (i : Nat) (rest : List Frame), s.epc = ⟨.compareBlock i, 0⟩ :: rest → s.blockReadable i →
    ∃ m t c x eq, execN (.compareBlock i) m s = .next t ∧
      afterReads s t (readsFrom (s.pbase i) c x) { s.regs with b := t.regs.b, equal := some eq } rest ∧
      ((eq = true ∧ c = 4096 ∧ ∀ b, b < c → s.imgByte? i b = some (x b)) ∨
        (eq = false ∧ c ≤ 4096 ∧ ∃ last, c = last + 1 ∧ s.imgByte? i last ≠ some (x last) ∧
          ∀ b, b < last → s.imgByte? i b = some (x b))) ∧
      (∀ b v, b < c → s.shows (s.pbase i + b) v → x b = v) ∧
      ((∀ b, b < SECTOR → ∃ v, s.shows (s.pbase i + b) v) → (eq = true ↔ s.blockEqual i))

/-- FLASH of an image that memory already holds: every byte of every block is read once, in order, and nothing else is
done on the bus: no write and no unlock; CNT = 0, IF = 1 (R218, R219, R220, R221; vector F1 of 95). -/
def Obligations.FlashIsIdempotent : Prop :=
  ∀ (s : State) (rest : List Frame), s.epc = ⟨.flash, 0⟩ :: rest → s.live → (∀ i, i < s.NBLK → s.blockEqual i) →
    exec .flash s = .next { s with regs := { s.regs with CNT := some 0 }, epc := ⟨.flash, 1⟩ :: rest } ∧
    ∃ m t x, engRun m s = .next t ∧ t.epc = rest ∧ t.regs.CNT = some 0 ∧ t.IF = true ∧ t.dev = s.dev ∧
      t.hist = s.hist ++ readsFrom (s.pbase 0) s.L x ∧ (∀ j, j < s.L → s.imgByte? (j / 4096) (j % 4096) = some (x j)) ∧
      t.faults = [] ∧ t.err = s.err

/-- FLASH's entry: CNT = 0, CS_ENTER, block 0. Its block loop: COMPARE_BLOCK of each block below NBLK in order; a block
that memory holds is passed over, with CNT kept and no cycle; after the last CS_EXIT and the return, with CNT kept and
IF = 1. On a block that differs: ERASE_SECTOR at the block's base, then PROGRAM_BYTE for every byte in order, then CNT
one higher and the next block. After a FALSE return of either: the error, CS_EXIT, CNT = −1, and the return, with no
further cycle (R188, R217, R219, R220, R221, R299; that i and b keep their values over the return is the model's choice,
log 34). -/
def Obligations.FlashErasesThenPrograms : Prop :=
  ∀ (s : State) (k : Nat) (rest : List Frame), s.epc = ⟨.flash, k⟩ :: rest → s.live →
    (k = 0 → engRun 4 s = .next { s with
      IF := false, regs := { s.regs with CNT := some 0, i := some 0 }, epc := ⟨.flash, 3⟩ :: rest }) ∧
    (∀ n, s.regs.i = some n →
      (k = 3 → n < s.NBLK → engRun 2 s = .next { s with epc := ⟨.compareBlock n, 0⟩ :: ⟨.flash, 5⟩ :: rest }) ∧
      (k = 3 → s.NBLK ≤ n → engRun 4 s = .next { s with IF := true, epc := rest }) ∧
      (k = 5 → s.regs.equal = some true → engRun 2 s = .next { s with
        regs := { s.regs with i := some (n + 1) }, epc := ⟨.flash, 3⟩ :: rest }) ∧
      (k = 5 → s.regs.equal = some false → engRun 2 s = .next { s with
        epc := ⟨.eraseSector .reg (s.D.toNat * 16 + n * 4096), 0⟩ :: ⟨.flash, 7⟩ :: rest }) ∧
      (∀ m, s.regs.b = some m →
        (∀ v, k = 13 → m < 4096 → s.imgByte? n m = some v → engRun 2 s = .next { s with
          epc := ⟨.programByte .reg (s.D.toNat * 16 + n * 4096 + m) v, 0⟩ :: ⟨.flash, 15⟩ :: rest }) ∧
        (∀ c, k = 13 → 4096 ≤ m → s.regs.CNT = some c → engRun 3 s = .next { s with
          regs := { s.regs with CNT := some (c + 1), i := some (n + 1) }, epc := ⟨.flash, 3⟩ :: rest }))) ∧
    (k = 7 → s.regs.PR = some true → engRun 2 s = .next { s with
      regs := { s.regs with b := some 0 }, epc := ⟨.flash, 13⟩ :: rest }) ∧
    (∀ m, k = 15 → s.regs.PR = some true → s.regs.b = some m → engRun 2 s = .next { s with
      regs := { s.regs with b := some (m + 1) }, epc := ⟨.flash, 13⟩ :: rest }) ∧
    (k = 7 → s.regs.PR = some false → engRun 6 s = .next { s with
      err := some .eraseTimeout, IF := true, regs := { s.regs with CNT := some (-1) }, epc := rest }) ∧
    (k = 15 → s.regs.PR = some false → engRun 6 s = .next { s with
      err := some .programTimeout, IF := true, regs := { s.regs with CNT := some (-1) }, epc := rest })

/-- VERIFY reads the destination byte by byte, whatever answers there, up to the first byte that differs from the
image's: VOK is 1 exactly if all L bytes read are the image's; nothing changes but VOK, i and b (R64, R217, R222). Where
no read can change what the destination shows, VOK is 1 exactly if memory holds every block. -/
def Obligations.VerifyReadsBack : Prop :=
  ∀ (s : State) (rest : List Frame), s.epc = ⟨.verify, 0⟩ :: rest → (∀ i, i < s.NBLK → s.blockReadable i) →
    ∃ m t c x ok, execN .verify m s = .next t ∧
      afterReads s t (readsFrom (s.pbase 0) c x) { s.regs with VOK := some ok, i := t.regs.i, b := t.regs.b } rest ∧
      ((ok = true ∧ c = s.L ∧ ∀ j, j < c → s.imgByte? (j / 4096) (j % 4096) = some (x j)) ∨
        (ok = false ∧ c ≤ s.L ∧ ∃ last, c = last + 1 ∧ s.imgByte? (last / 4096) (last % 4096) ≠ some (x last) ∧
          ∀ j, j < last → s.imgByte? (j / 4096) (j % 4096) = some (x j))) ∧
      (∀ j v, j < c → s.shows (s.pbase 0 + j) v → x j = v) ∧
      ((∀ j, j < s.L → ∃ v, s.shows (s.pbase 0 + j) v) → (ok = true ↔ ∀ i, i < s.NBLK → s.blockEqual i))

/-! ## Top level -/

/-- RUN calls CAL, PLAN, OVERLAP, DETECT, ID_DECODE, then the messages and the prompt, FLASH, and VERIFY where CNT > 0,
in this order; and its ends: unrecognised, aborted, up to date, timeout, complete and verify failed, each from the
statement after the callee that decides it (R225, R226, R227, R228). -/
def Obligations.RunEndsAsTabled : Prop :=
  ∀ (s : State) (k : Nat) (rest : List Frame), s.epc = ⟨.run, k⟩ :: rest → s.live →
    (k = 0 → exec .run s = .next { s with epc := ⟨.cal .reg, 0⟩ :: ⟨.run, 1⟩ :: rest }) ∧
    (k = 1 → exec .run s = .next { s with epc := ⟨.plan .reg .reg, 0⟩ :: ⟨.run, 2⟩ :: rest }) ∧
    (k = 2 → exec .run s = .next { s with epc := ⟨.overlap .reg .reg .reg, 0⟩ :: ⟨.run, 3⟩ :: rest }) ∧
    (k = 3 → exec .run s = .next { s with epc := ⟨.detect .reg .reg, 0⟩ :: ⟨.run, 4⟩ :: rest }) ∧
    (k = 4 → exec .run s = .next { s with epc := ⟨.idDecode .reg .reg, 0⟩ :: ⟨.run, 5⟩ :: rest }) ∧
    (∀ x o, k = 5 → s.regs.PARTF = some x → x ≠ .none → s.regs.OVL = some o →
      ∃ m, engRun m s = .next { s with
        msg := s.msg ++ (if o then [.overlapWarning] else []) ++ [.summary x s.D s.L, .prompt],
        epc := ⟨.run, 13⟩ :: rest }) ∧
    (∀ c, k = 18 → s.regs.CNT = some c → 0 < c →
      engRun 3 s = .next { s with epc := ⟨.verify, 0⟩ :: ⟨.run, 25⟩ :: rest }) ∧
    (k = 5 → s.regs.PARTF = some .none → s.regs.S ≠ none →
      ∃ t, engRun 4 s = .next t ∧ RunEnd.unrecognised.holds t ∧ t.dev = s.dev ∧ t.hist = s.hist) ∧
    (k = 12 → isYes s.key = false →
      ∃ t, engRun 5 s = .next t ∧ RunEnd.aborted.holds t ∧ t.dev = s.dev ∧ t.hist = s.hist) ∧
    (k = 12 → isYes s.key = true → ∃ t, engRun 4 s = .next t ∧ t.epc = ⟨.flash, 0⟩ :: ⟨.run, 18⟩ :: rest ∧
      t.dev = s.dev ∧ t.hist = s.hist) ∧
    (k = 18 → s.regs.CNT = some 0 → s.err = none →
      ∃ t, engRun 3 s = .next t ∧ RunEnd.upToDate.holds t ∧ t.dev = s.dev ∧ t.hist = s.hist) ∧
    (k = 18 → s.regs.CNT = some (-1) → (s.err = some .eraseTimeout ∨ s.err = some .programTimeout) →
      ∃ t, engRun 5 s = .next t ∧ RunEnd.timeout.holds t ∧ t.dev = s.dev ∧ t.hist = s.hist) ∧
    (k = 25 → s.regs.VOK = some true → s.err = none →
      ∃ t, engRun 4 s = .next t ∧ RunEnd.complete.holds t ∧ t.dev = s.dev ∧ t.hist = s.hist) ∧
    (k = 25 → s.regs.VOK = some false →
      ∃ t, engRun 5 s = .next t ∧ RunEnd.verifyFailed.holds t ∧ t.dev = s.dev ∧ t.hist = s.hist)

/-- The whole run under MEMCFG = TEST on memory that already holds the image, answered 'y' or 'Y': EXIT = 0, "already
up to date", the array unchanged, no write but DETECT's four, and as many reads as OVERLAP's probes, DETECT and FLASH's
comparison make (R182, R215, R221, R226, R228; scenario 5 of 95). -/
def Obligations.MatchingImageRunExitsZero : Prop :=
  ∀ (s : State) (p : Part) (S : Seg) (key : Byte) (keys : List Byte), s.epc = [⟨.run, 0⟩] → s.live → s.err = none →
    s.cfg.memcfg = .test → s.dev.mode = .read → s.keys = key :: keys → isYes key = true → s.cfg.idStale < s.cfg.idReads →
    s.cfg.testVendor = 0xBF → s.cfg.testDevice = p.code →
    S = planSegment (if planRoundsUp (physical s.D 0) (planFloor (physical s.D 0)) s.L then
      planFloor (physical s.D 0) + WINDOW else planFloor (physical s.D 0)) →
    (∀ k, k < 16 → (∃ v, s.shows ((S.toNat + 0x80 * k) * 16) v) ∧ ∃ v, s.shows ((S.toNat + 0x80 * k) * 16 + 1) v) →
    s.window S → s.idSector s.D → (∀ i, i < s.NBLK → s.blockEqual i) →
    ∃ m t l, engRun m s = .next t ∧ RunEnd.upToDate.holds t ∧ t.dev = s.dev ∧ t.ram = s.ram ∧ t.faults = [] ∧
      t.IF = true ∧ t.hist = s.hist ++ l ∧ (l.filter fun e => e.kind = .W).length = 4 ∧
      l.length = 2 * ((List.range 16).filter fun k => !inDestination s.D s.L (S.toNat + 0x80 * k)).length +
        (s.cfg.idReads + 5) + s.L

/-- HALT sets HALTED and nothing else; once HALTED is 1 or EXIT is set, ENG's step changes nothing but the choice of the
move (R38, R41, R229). -/
def Obligations.HaltStopsTheEngine : Prop :=
  (∀ (s : State) (rest : List Frame), s.epc = ⟨.halt, 0⟩ :: rest → exec .halt s = .next { s with halted := true }) ∧
    ∀ s : State, s.faults = [] → s.nextMove = .eng → (s.exit ≠ none ∨ s.halted = true) →
      step s = .next s.moveTaken

/-! ## Model faults -/

/-- An access at or above 1 MiB is not performed: only AddressOutOfWindow is recorded (R62, R263). -/
def Obligations.AccessAboveWindowFaults : Prop :=
  ∀ (s : State) (ag : Agent) (p : Nat) (v : Byte), 0x100000 ≤ p → s.faults = [] →
    s.busRead ag p = .stop { s with faults := [.addressOutOfWindow p] } ∧
    s.busWrite ag p v = .stop { s with faults := [.addressOutOfWindow p] }

/-- A write outside DEV_MAP's domain is not performed under REAL (CommandOutsideDevice), and stores one byte of the
RAM under TEST; a read there gives the tick, OTHER_MEM or the RAM byte (R11, R64, R65, R70). At TICK_ADDR under
MEMCFG = TEST, where the tick answers the read and the RAM takes the write, this is the model's reading: log 18. -/
def Obligations.AccessOutsideDevice : Prop :=
  ∀ (s : State) (ag : Agent) (p : PhysAddr) (v : Byte), s.cfg.devAddr? p = none →
    (s.cfg.memcfg = .real → s.faults = [] →
      s.busWrite ag p.toNat v = .stop { s with faults := [.commandOutsideDevice p] }) ∧
    (s.cfg.memcfg = .test → ∃ t, s.busWrite ag p.toNat v = .ok v t ∧ t.dev = s.dev ∧
      ∀ q, t.ramByte q = if q = p then v else s.ramByte q) ∧
    (∃ x, s.busRead ag p.toNat = .ok x { s with hist := s.hist ++ [⟨ag, .R, p, x⟩] } ∧
      (p = s.cfg.tickAddr → x = s.tick) ∧
      (p ≠ s.cfg.tickAddr → s.cfg.memcfg = .real → x = Config.otherMem s.hist p) ∧
      (p ≠ s.cfg.tickAddr → s.cfg.memcfg = .test → x = s.ramByte p))

/-- A statement that reads an unset register records UnsetRegister with the register's name and has no other effect; a
statement whose registers all hold a value records none. For every statement of every procedure (R32, R262; which name
is recorded where two are unset is the model's choice, log 33). -/
def Obligations.UnsetRegisterFaults : Prop :=
  ∀ (i : Instr) (s : State), s.faults = [] →
    (∀ name, (operandRegs i s.stmt).find? s.lacks = some name →
      exec i s = .next { s with faults := [.unsetRegister name] }) ∧
    ((operandRegs i s.stmt).find? s.lacks = none →
      ∀ t name, exec i s = .next t → .unsetRegister name ∉ t.faults)

/-- The first write of ERASE_SECTOR and of PROGRAM_BYTE with IF = 1 records CriticalSectionViolation and performs no
write; an unset S is reported before it, and the address and the device's answer are not looked at (R186, R264). -/
def Obligations.CriticalSectionIsChecked : Prop :=
  ∀ (s : State) (S : Operand Seg) (p : Nat) (v : Byte), s.stmt = 0 → s.IF = true → s.faults = [] →
    (operand? S s.regs.S ≠ none →
      exec (.eraseSector S p) s = .next { s with faults := [.criticalSectionViolation] } ∧
      exec (.programByte S p v) s = .next { s with faults := [.criticalSectionViolation] }) ∧
    (operand? S s.regs.S = none →
      exec (.eraseSector S p) s = .next { s with faults := [.unsetRegister .S] } ∧
      exec (.programByte S p v) s = .next { s with faults := [.unsetRegister .S] })

/-! ## The other agents -/

/-- ISR: no step while IF = 0; while IF = 1 one read and nothing written: HIST grows by one ISR read, and only the
device's mode and fault, FAULTS and the count of draws can change besides. In a run that entered at RUN it causes no
fault and leaves the device (R186, R265, R280): on real hardware, under MEMCFG = TEST as long as every write has
reached the device (StepKeepsCriticalSection, log 35), and without a device. -/
def Obligations.IsrOnlyReads : Prop :=
  ∀ (s : State) (p : PhysAddr), s.faults = [] →
    (s.IF = false → isrStep p s = .next s) ∧
    (s.IF = true → ∃ t v, isrStep p s = .next t ∧ t.hist = s.hist ++ [⟨.isr, .R, p, v⟩] ∧
      t = { s with dev := { s.dev with mode := t.dev.mode, fault := t.dev.fault }, hist := t.hist,
                   faults := t.faults, draws := t.draws } ∧
      (CriticalInv s ∨ s.cfg.devMap = [] → t.faults = [] ∧ t.dev = s.dev))

/-- TICK's step adds 1 modulo 256 and changes nothing else, and a read of TICK_ADDR returns the tick byte (R11, R43). Under
MEMCFG = TEST that the tick and not the RAM answers is the model's reading: log 18. -/
def Obligations.TickCounts : Prop :=
  (∀ s : State, agentStep .tick s = .next { s with tick := BitVec.ofNat 8 ((s.tick.toNat + 1) % 256) }) ∧
    ∀ (s : State) (ag : Agent), s.cfg.wf = true →
      s.busRead ag s.cfg.tickAddr.toNat =
        .ok s.tick { s with hist := s.hist ++ [⟨ag, .R, s.cfg.tickAddr, s.tick⟩] }
end

