-- ==== Sys2Proof/Laws/Memory.lean ====
section
/-! SUPPORT. Byte memories: a read after a write or a fill, and the canonical form that both keep. -/

namespace Sys2Proof.Machine

variable {blank v : Byte} {m l : List Host.Cell} {lo count size a : Nat}

@[simp] theorem Memory.read_nil : Memory.read blank [] a = blank := rfl

theorem Memory.read_cons (k : Nat) (w : Byte) :
    Memory.read blank ((k, w) :: m) a = if a = k then w else Memory.read blank m a := rfl

/-- Cells at other addresses in front of a memory do not change what an address reads as. -/
theorem Memory.read_append_of_forall_ne (h : ∀ c ∈ l, c.1 ≠ a) :
    Memory.read blank (l ++ m) a = Memory.read blank m a := by
  induction l with
  | nil => rfl
  | cons c l ih =>
    have hc := h c List.mem_cons_self
    rw [List.cons_append, ← Prod.mk.eta (p := c), Memory.read_cons, if_neg (Ne.symm hc),
      ih fun d hd => h d (List.mem_cons_of_mem _ hd)]

/-- An address that a memory does not list reads as the blank byte. -/
theorem Memory.read_eq_blank (h : ∀ c ∈ m, c.1 ≠ a) : Memory.read blank m a = blank := by
  simpa using Memory.read_append_of_forall_ne (m := []) (blank := blank) h

/-- Cells at other addresses behind a memory do not change what an address reads as. -/
theorem Memory.read_append_right (h : ∀ c ∈ m, c.1 ≠ a) :
    Memory.read blank (l ++ m) a = Memory.read blank l a := by
  induction l with
  | nil => simpa using Memory.read_eq_blank h
  | cons c l ih => rw [List.cons_append, ← Prod.mk.eta (p := c), Memory.read_cons, Memory.read_cons, ih]

/-- Keeping the cells at an address's side of a bound keeps what the address reads as. -/
theorem Memory.read_filter (p : Host.Cell → Bool) (h : ∀ w, p (a, w) = true) :
    Memory.read blank (m.filter p) a = Memory.read blank m a := by
  induction m with
  | nil => rfl
  | cons c m ih =>
    obtain ⟨k, w⟩ := c
    by_cases hk : a = k
    · subst hk; simp [h, Memory.read_cons]
    · by_cases hp : p (k, w) = true <;> simp [hp, Memory.read_cons, hk, ih]

theorem Memory.read_mapped (h : lo ≤ a ∧ a < lo + count) :
    Memory.read blank ((List.range' lo count).map fun a => (a, v)) a = v := by
  induction count generalizing lo with
  | zero => omega
  | succ n ih =>
    rw [List.range'_succ, List.map_cons, Memory.read_cons]
    by_cases hk : a = lo
    · simp [hk]
    · rw [if_neg hk, ih (by omega)]

/-- A byte inside a fill reads as the byte filled in, every other byte as before. -/
theorem Memory.read_fill :
    Memory.read blank (Memory.fill blank m lo count v) a =
      if lo ≤ a ∧ a < lo + count then v else Memory.read blank m a := by
  have mid : ∀ c ∈ (if v = blank then [] else (List.range' lo count).map fun a => (a, v)),
      lo ≤ c.1 ∧ c.1 < lo + count := by
    intro c hc
    split at hc
    · simp at hc
    · simp only [List.mem_map, List.mem_range'_1] at hc
      obtain ⟨k, hk, rfl⟩ := hc
      exact hk
  unfold Memory.fill
  by_cases h : lo ≤ a ∧ a < lo + count
  · rw [if_pos h, List.append_assoc, Memory.read_append_of_forall_ne, Memory.read_append_right]
    · by_cases hv : v = blank
      · simp [hv]
      · rw [if_neg hv]; exact Memory.read_mapped h
    · intro c hc; simp only [List.mem_filter, decide_eq_true_eq] at hc; omega
    · intro c hc; simp only [List.mem_filter, decide_eq_true_eq] at hc; omega
  · rw [if_neg h]
    by_cases hlo : a < lo
    · rw [Memory.read_append_right, Memory.read_append_right, Memory.read_filter _ (by simpa using hlo)]
      · intro c hc; have := mid c hc; omega
      · intro c hc; simp only [List.mem_filter, decide_eq_true_eq] at hc; omega
    · rw [Memory.read_append_of_forall_ne, Memory.read_filter _ (by simp; omega)]
      intro c hc
      rcases List.mem_append.mp hc with hc | hc
      · simp only [List.mem_filter, decide_eq_true_eq] at hc; omega
      · have := mid c hc; omega

/-- A read after a write: the byte written at its address, every other byte as before. -/
theorem Memory.read_write {k : Nat} :
    Memory.read blank (Memory.write blank m k v) a = if a = k then v else Memory.read blank m a := by
  rw [Memory.write, Memory.read_fill]
  by_cases h : a = k
  · simp [h]
  · rw [if_neg (by omega), if_neg h]

theorem Memory.nil_wf : Memory.wf blank size [] := by simp [Memory.wf]

/-- A fill inside the memory keeps the canonical form. -/
theorem Memory.fill_wf (h : Memory.wf blank size m) (hs : lo + count ≤ size) :
    Memory.wf blank size (Memory.fill blank m lo count v) := by
  obtain ⟨hp, hb⟩ := h
  have mid : ∀ c ∈ (if v = blank then [] else (List.range' lo count).map fun a => (a, v)),
      lo ≤ c.1 ∧ c.1 < lo + count ∧ c.2 ≠ blank := by
    intro c hc
    split at hc
    · simp at hc
    next hv =>
      simp only [List.mem_map, List.mem_range'_1] at hc
      obtain ⟨k, hk, rfl⟩ := hc
      exact ⟨hk.1, hk.2, hv⟩
  constructor
  · unfold Memory.fill
    rw [List.pairwise_append, List.pairwise_append]
    refine ⟨⟨hp.filter _, ?_, ?_⟩, hp.filter _, ?_⟩
    · split
      · exact List.Pairwise.nil
      · rw [List.pairwise_map]; exact List.pairwise_lt_range'
    · intro c hc d hd
      have hd := mid d hd
      simp only [List.mem_filter, decide_eq_true_eq] at hc; omega
    · intro c hc d hd
      simp only [List.mem_filter, decide_eq_true_eq] at hd
      rcases List.mem_append.mp hc with hc | hc
      · simp only [List.mem_filter, decide_eq_true_eq] at hc; omega
      · have := mid c hc; omega
  · intro c hc
    unfold Memory.fill at hc
    rcases List.mem_append.mp hc with hc | hc
    · rcases List.mem_append.mp hc with hc | hc
      · exact hb c (List.mem_filter.mp hc).1
      · obtain ⟨h1, h2, h3⟩ := mid c hc; exact ⟨h3, by omega⟩
    · exact hb c (List.mem_filter.mp hc).1

/-- A write inside the memory keeps the canonical form. -/
theorem Memory.write_wf (h : Memory.wf blank size m) (ha : a < size) :
    Memory.wf blank size (Memory.write blank m a v) :=
  Memory.fill_wf h (by omega)

/-! ## Several writes -/

variable {f : Nat → Byte} {as : List Nat}

/-- Writes at other addresses leave a byte. -/
theorem Memory.read_writeEach (h : a ∉ as) :
    Memory.read blank (Memory.writeEach blank f m as) a = Memory.read blank m a := by
  unfold Memory.writeEach
  induction as generalizing m with
  | nil => rfl
  | cons k ks ih =>
    rw [List.foldl_cons, ih fun hk => h (List.mem_cons_of_mem _ hk), Memory.read_write,
      if_neg (List.ne_of_not_mem_cons h)]

/-- Writes inside the memory keep the canonical form. -/
theorem Memory.writeEach_wf (h : Memory.wf blank size m) (ha : ∀ k ∈ as, k < size) :
    Memory.wf blank size (Memory.writeEach blank f m as) := by
  unfold Memory.writeEach
  induction as generalizing m with
  | nil => exact h
  | cons k ks ih =>
    exact ih (Memory.write_wf h (ha k List.mem_cons_self)) fun j hj => ha j (List.mem_cons_of_mem _ hj)

end Sys2Proof.Machine
end

