-- ==== Sys2Proof/Laws/State.lean ====
section
/-! SUPPORT. What each update of the state does to each field: one lemma per field per update, true by rfl, so that
no later proof unfolds an update. -/

namespace Sys2Proof.Machine

/-! ## log -/

@[simp] theorem State.log_cfg (s : State) (e : BusEvent) : (s.log e).cfg = s.cfg := rfl
@[simp] theorem State.log_dev (s : State) (e : BusEvent) : (s.log e).dev = s.dev := rfl
@[simp] theorem State.log_D (s : State) (e : BusEvent) : (s.log e).D = s.D := rfl
@[simp] theorem State.log_img (s : State) (e : BusEvent) : (s.log e).img = s.img := rfl
@[simp] theorem State.log_orig (s : State) (e : BusEvent) : (s.log e).orig = s.orig := rfl
@[simp] theorem State.log_regs (s : State) (e : BusEvent) : (s.log e).regs = s.regs := rfl
@[simp] theorem State.log_IF (s : State) (e : BusEvent) : (s.log e).IF = s.IF := rfl
@[simp] theorem State.log_tick (s : State) (e : BusEvent) : (s.log e).tick = s.tick := rfl
@[simp] theorem State.log_hist (s : State) (e : BusEvent) : (s.log e).hist = s.hist ++ [e] := rfl
@[simp] theorem State.log_epc (s : State) (e : BusEvent) : (s.log e).epc = s.epc := rfl
@[simp] theorem State.log_msg (s : State) (e : BusEvent) : (s.log e).msg = s.msg := rfl
@[simp] theorem State.log_exit (s : State) (e : BusEvent) : (s.log e).exit = s.exit := rfl
@[simp] theorem State.log_halted (s : State) (e : BusEvent) : (s.log e).halted = s.halted := rfl
@[simp] theorem State.log_err (s : State) (e : BusEvent) : (s.log e).err = s.err := rfl
@[simp] theorem State.log_faults (s : State) (e : BusEvent) : (s.log e).faults = s.faults := rfl
@[simp] theorem State.log_ram (s : State) (e : BusEvent) : (s.log e).ram = s.ram := rfl
@[simp] theorem State.log_sched (s : State) (e : BusEvent) : (s.log e).sched = s.sched := rfl
@[simp] theorem State.log_keys (s : State) (e : BusEvent) : (s.log e).keys = s.keys := rfl
@[simp] theorem State.log_draws (s : State) (e : BusEvent) : (s.log e).draws = s.draws := rfl
@[simp] theorem State.log_queue (s : State) (e : BusEvent) : (s.log e).queue = s.queue := rfl

/-! ## drawn -/

@[simp] theorem State.drawn_cfg (s : State) : (s.drawn).cfg = s.cfg := rfl
@[simp] theorem State.drawn_dev (s : State) : (s.drawn).dev = s.dev := rfl
@[simp] theorem State.drawn_D (s : State) : (s.drawn).D = s.D := rfl
@[simp] theorem State.drawn_img (s : State) : (s.drawn).img = s.img := rfl
@[simp] theorem State.drawn_orig (s : State) : (s.drawn).orig = s.orig := rfl
@[simp] theorem State.drawn_regs (s : State) : (s.drawn).regs = s.regs := rfl
@[simp] theorem State.drawn_IF (s : State) : (s.drawn).IF = s.IF := rfl
@[simp] theorem State.drawn_tick (s : State) : (s.drawn).tick = s.tick := rfl
@[simp] theorem State.drawn_hist (s : State) : (s.drawn).hist = s.hist := rfl
@[simp] theorem State.drawn_epc (s : State) : (s.drawn).epc = s.epc := rfl
@[simp] theorem State.drawn_msg (s : State) : (s.drawn).msg = s.msg := rfl
@[simp] theorem State.drawn_exit (s : State) : (s.drawn).exit = s.exit := rfl
@[simp] theorem State.drawn_halted (s : State) : (s.drawn).halted = s.halted := rfl
@[simp] theorem State.drawn_err (s : State) : (s.drawn).err = s.err := rfl
@[simp] theorem State.drawn_faults (s : State) : (s.drawn).faults = s.faults := rfl
@[simp] theorem State.drawn_ram (s : State) : (s.drawn).ram = s.ram := rfl
@[simp] theorem State.drawn_sched (s : State) : (s.drawn).sched = s.sched := rfl
@[simp] theorem State.drawn_keys (s : State) : (s.drawn).keys = s.keys := rfl
@[simp] theorem State.drawn_draws (s : State) : (s.drawn).draws = s.draws + 1 := rfl
@[simp] theorem State.drawn_queue (s : State) : (s.drawn).queue = s.queue := rfl

/-! ## raise -/

@[simp] theorem State.raise_cfg (s : State) (f : FaultKind) : (s.raise f).cfg = s.cfg := rfl
@[simp] theorem State.raise_dev (s : State) (f : FaultKind) : (s.raise f).dev = s.dev := rfl
@[simp] theorem State.raise_D (s : State) (f : FaultKind) : (s.raise f).D = s.D := rfl
@[simp] theorem State.raise_img (s : State) (f : FaultKind) : (s.raise f).img = s.img := rfl
@[simp] theorem State.raise_orig (s : State) (f : FaultKind) : (s.raise f).orig = s.orig := rfl
@[simp] theorem State.raise_regs (s : State) (f : FaultKind) : (s.raise f).regs = s.regs := rfl
@[simp] theorem State.raise_IF (s : State) (f : FaultKind) : (s.raise f).IF = s.IF := rfl
@[simp] theorem State.raise_tick (s : State) (f : FaultKind) : (s.raise f).tick = s.tick := rfl
@[simp] theorem State.raise_hist (s : State) (f : FaultKind) : (s.raise f).hist = s.hist := rfl
@[simp] theorem State.raise_epc (s : State) (f : FaultKind) : (s.raise f).epc = s.epc := rfl
@[simp] theorem State.raise_msg (s : State) (f : FaultKind) : (s.raise f).msg = s.msg := rfl
@[simp] theorem State.raise_exit (s : State) (f : FaultKind) : (s.raise f).exit = s.exit := rfl
@[simp] theorem State.raise_halted (s : State) (f : FaultKind) : (s.raise f).halted = s.halted := rfl
@[simp] theorem State.raise_err (s : State) (f : FaultKind) : (s.raise f).err = s.err := rfl
@[simp] theorem State.raise_faults (s : State) (f : FaultKind) : (s.raise f).faults =
    if f ∈ s.faults then s.faults else s.faults ++ [f] := rfl
@[simp] theorem State.raise_ram (s : State) (f : FaultKind) : (s.raise f).ram = s.ram := rfl
@[simp] theorem State.raise_sched (s : State) (f : FaultKind) : (s.raise f).sched = s.sched := rfl
@[simp] theorem State.raise_keys (s : State) (f : FaultKind) : (s.raise f).keys = s.keys := rfl
@[simp] theorem State.raise_draws (s : State) (f : FaultKind) : (s.raise f).draws = s.draws := rfl
@[simp] theorem State.raise_queue (s : State) (f : FaultKind) : (s.raise f).queue = s.queue := rfl

/-! ## setMode -/

@[simp] theorem State.setMode_cfg (s : State) (m : DevMode) : (s.setMode m).cfg = s.cfg := rfl
@[simp] theorem State.setMode_dev (s : State) (m : DevMode) : (s.setMode m).dev = { s.dev with mode := m } := rfl
@[simp] theorem State.setMode_D (s : State) (m : DevMode) : (s.setMode m).D = s.D := rfl
@[simp] theorem State.setMode_img (s : State) (m : DevMode) : (s.setMode m).img = s.img := rfl
@[simp] theorem State.setMode_orig (s : State) (m : DevMode) : (s.setMode m).orig = s.orig := rfl
@[simp] theorem State.setMode_regs (s : State) (m : DevMode) : (s.setMode m).regs = s.regs := rfl
@[simp] theorem State.setMode_IF (s : State) (m : DevMode) : (s.setMode m).IF = s.IF := rfl
@[simp] theorem State.setMode_tick (s : State) (m : DevMode) : (s.setMode m).tick = s.tick := rfl
@[simp] theorem State.setMode_hist (s : State) (m : DevMode) : (s.setMode m).hist = s.hist := rfl
@[simp] theorem State.setMode_epc (s : State) (m : DevMode) : (s.setMode m).epc = s.epc := rfl
@[simp] theorem State.setMode_msg (s : State) (m : DevMode) : (s.setMode m).msg = s.msg := rfl
@[simp] theorem State.setMode_exit (s : State) (m : DevMode) : (s.setMode m).exit = s.exit := rfl
@[simp] theorem State.setMode_halted (s : State) (m : DevMode) : (s.setMode m).halted = s.halted := rfl
@[simp] theorem State.setMode_err (s : State) (m : DevMode) : (s.setMode m).err = s.err := rfl
@[simp] theorem State.setMode_faults (s : State) (m : DevMode) : (s.setMode m).faults = s.faults := rfl
@[simp] theorem State.setMode_ram (s : State) (m : DevMode) : (s.setMode m).ram = s.ram := rfl
@[simp] theorem State.setMode_sched (s : State) (m : DevMode) : (s.setMode m).sched = s.sched := rfl
@[simp] theorem State.setMode_keys (s : State) (m : DevMode) : (s.setMode m).keys = s.keys := rfl
@[simp] theorem State.setMode_draws (s : State) (m : DevMode) : (s.setMode m).draws = s.draws := rfl
@[simp] theorem State.setMode_queue (s : State) (m : DevMode) : (s.setMode m).queue = s.queue := rfl

/-! ## tickStep -/

@[simp] theorem State.tickStep_cfg (s : State) : (s.tickStep).cfg = s.cfg := rfl
@[simp] theorem State.tickStep_dev (s : State) : (s.tickStep).dev = s.dev := rfl
@[simp] theorem State.tickStep_D (s : State) : (s.tickStep).D = s.D := rfl
@[simp] theorem State.tickStep_img (s : State) : (s.tickStep).img = s.img := rfl
@[simp] theorem State.tickStep_orig (s : State) : (s.tickStep).orig = s.orig := rfl
@[simp] theorem State.tickStep_regs (s : State) : (s.tickStep).regs = s.regs := rfl
@[simp] theorem State.tickStep_IF (s : State) : (s.tickStep).IF = s.IF := rfl
@[simp] theorem State.tickStep_tick (s : State) : (s.tickStep).tick = s.tick + 1 := rfl
@[simp] theorem State.tickStep_hist (s : State) : (s.tickStep).hist = s.hist := rfl
@[simp] theorem State.tickStep_epc (s : State) : (s.tickStep).epc = s.epc := rfl
@[simp] theorem State.tickStep_msg (s : State) : (s.tickStep).msg = s.msg := rfl
@[simp] theorem State.tickStep_exit (s : State) : (s.tickStep).exit = s.exit := rfl
@[simp] theorem State.tickStep_halted (s : State) : (s.tickStep).halted = s.halted := rfl
@[simp] theorem State.tickStep_err (s : State) : (s.tickStep).err = s.err := rfl
@[simp] theorem State.tickStep_faults (s : State) : (s.tickStep).faults = s.faults := rfl
@[simp] theorem State.tickStep_ram (s : State) : (s.tickStep).ram = s.ram := rfl
@[simp] theorem State.tickStep_sched (s : State) : (s.tickStep).sched = s.sched := rfl
@[simp] theorem State.tickStep_keys (s : State) : (s.tickStep).keys = s.keys := rfl
@[simp] theorem State.tickStep_draws (s : State) : (s.tickStep).draws = s.draws := rfl
@[simp] theorem State.tickStep_queue (s : State) : (s.tickStep).queue = s.queue := rfl

/-! ## goto -/

@[simp] theorem State.goto_cfg (s : State) (k : Nat) : (s.goto k).cfg = s.cfg := rfl
@[simp] theorem State.goto_dev (s : State) (k : Nat) : (s.goto k).dev = s.dev := rfl
@[simp] theorem State.goto_D (s : State) (k : Nat) : (s.goto k).D = s.D := rfl
@[simp] theorem State.goto_img (s : State) (k : Nat) : (s.goto k).img = s.img := rfl
@[simp] theorem State.goto_orig (s : State) (k : Nat) : (s.goto k).orig = s.orig := rfl
@[simp] theorem State.goto_regs (s : State) (k : Nat) : (s.goto k).regs = s.regs := rfl
@[simp] theorem State.goto_IF (s : State) (k : Nat) : (s.goto k).IF = s.IF := rfl
@[simp] theorem State.goto_tick (s : State) (k : Nat) : (s.goto k).tick = s.tick := rfl
@[simp] theorem State.goto_hist (s : State) (k : Nat) : (s.goto k).hist = s.hist := rfl
theorem State.goto_epc (s : State) (k : Nat) : (s.goto k).epc =
    match s.epc with | f :: rest => { f with idx := k } :: rest | [] => [] := rfl
@[simp] theorem State.goto_msg (s : State) (k : Nat) : (s.goto k).msg = s.msg := rfl
@[simp] theorem State.goto_exit (s : State) (k : Nat) : (s.goto k).exit = s.exit := rfl
@[simp] theorem State.goto_halted (s : State) (k : Nat) : (s.goto k).halted = s.halted := rfl
@[simp] theorem State.goto_err (s : State) (k : Nat) : (s.goto k).err = s.err := rfl
@[simp] theorem State.goto_faults (s : State) (k : Nat) : (s.goto k).faults = s.faults := rfl
@[simp] theorem State.goto_ram (s : State) (k : Nat) : (s.goto k).ram = s.ram := rfl
@[simp] theorem State.goto_sched (s : State) (k : Nat) : (s.goto k).sched = s.sched := rfl
@[simp] theorem State.goto_keys (s : State) (k : Nat) : (s.goto k).keys = s.keys := rfl
@[simp] theorem State.goto_draws (s : State) (k : Nat) : (s.goto k).draws = s.draws := rfl
@[simp] theorem State.goto_queue (s : State) (k : Nat) : (s.goto k).queue = s.queue := rfl

/-! ## ret -/

@[simp] theorem State.ret_cfg (s : State) : (s.ret).cfg = s.cfg := rfl
@[simp] theorem State.ret_dev (s : State) : (s.ret).dev = s.dev := rfl
@[simp] theorem State.ret_D (s : State) : (s.ret).D = s.D := rfl
@[simp] theorem State.ret_img (s : State) : (s.ret).img = s.img := rfl
@[simp] theorem State.ret_orig (s : State) : (s.ret).orig = s.orig := rfl
@[simp] theorem State.ret_regs (s : State) : (s.ret).regs = s.regs := rfl
@[simp] theorem State.ret_IF (s : State) : (s.ret).IF = s.IF := rfl
@[simp] theorem State.ret_tick (s : State) : (s.ret).tick = s.tick := rfl
@[simp] theorem State.ret_hist (s : State) : (s.ret).hist = s.hist := rfl
@[simp] theorem State.ret_epc (s : State) : (s.ret).epc = s.epc.tail := rfl
@[simp] theorem State.ret_msg (s : State) : (s.ret).msg = s.msg := rfl
@[simp] theorem State.ret_exit (s : State) : (s.ret).exit = s.exit := rfl
@[simp] theorem State.ret_halted (s : State) : (s.ret).halted = s.halted := rfl
@[simp] theorem State.ret_err (s : State) : (s.ret).err = s.err := rfl
@[simp] theorem State.ret_faults (s : State) : (s.ret).faults = s.faults := rfl
@[simp] theorem State.ret_ram (s : State) : (s.ret).ram = s.ram := rfl
@[simp] theorem State.ret_sched (s : State) : (s.ret).sched = s.sched := rfl
@[simp] theorem State.ret_keys (s : State) : (s.ret).keys = s.keys := rfl
@[simp] theorem State.ret_draws (s : State) : (s.ret).draws = s.draws := rfl
@[simp] theorem State.ret_queue (s : State) : (s.ret).queue = s.queue := rfl

/-! ## call -/

@[simp] theorem State.call_cfg (s : State) (i : Instr) (k : Nat) : (s.call i k).cfg = s.cfg := rfl
@[simp] theorem State.call_dev (s : State) (i : Instr) (k : Nat) : (s.call i k).dev = s.dev := rfl
@[simp] theorem State.call_D (s : State) (i : Instr) (k : Nat) : (s.call i k).D = s.D := rfl
@[simp] theorem State.call_img (s : State) (i : Instr) (k : Nat) : (s.call i k).img = s.img := rfl
@[simp] theorem State.call_orig (s : State) (i : Instr) (k : Nat) : (s.call i k).orig = s.orig := rfl
@[simp] theorem State.call_regs (s : State) (i : Instr) (k : Nat) : (s.call i k).regs = s.regs := rfl
@[simp] theorem State.call_IF (s : State) (i : Instr) (k : Nat) : (s.call i k).IF = s.IF := rfl
@[simp] theorem State.call_tick (s : State) (i : Instr) (k : Nat) : (s.call i k).tick = s.tick := rfl
@[simp] theorem State.call_hist (s : State) (i : Instr) (k : Nat) : (s.call i k).hist = s.hist := rfl
@[simp] theorem State.call_epc (s : State) (i : Instr) (k : Nat) : (s.call i k).epc = ⟨i, 0⟩ :: (s.goto k).epc := rfl
@[simp] theorem State.call_msg (s : State) (i : Instr) (k : Nat) : (s.call i k).msg = s.msg := rfl
@[simp] theorem State.call_exit (s : State) (i : Instr) (k : Nat) : (s.call i k).exit = s.exit := rfl
@[simp] theorem State.call_halted (s : State) (i : Instr) (k : Nat) : (s.call i k).halted = s.halted := rfl
@[simp] theorem State.call_err (s : State) (i : Instr) (k : Nat) : (s.call i k).err = s.err := rfl
@[simp] theorem State.call_faults (s : State) (i : Instr) (k : Nat) : (s.call i k).faults = s.faults := rfl
@[simp] theorem State.call_ram (s : State) (i : Instr) (k : Nat) : (s.call i k).ram = s.ram := rfl
@[simp] theorem State.call_sched (s : State) (i : Instr) (k : Nat) : (s.call i k).sched = s.sched := rfl
@[simp] theorem State.call_keys (s : State) (i : Instr) (k : Nat) : (s.call i k).keys = s.keys := rfl
@[simp] theorem State.call_draws (s : State) (i : Instr) (k : Nat) : (s.call i k).draws = s.draws := rfl
@[simp] theorem State.call_queue (s : State) (i : Instr) (k : Nat) : (s.call i k).queue = s.queue := rfl

/-! ## setRegs -/

@[simp] theorem State.setRegs_cfg (s : State) (f : Regs → Regs) : (s.setRegs f).cfg = s.cfg := rfl
@[simp] theorem State.setRegs_dev (s : State) (f : Regs → Regs) : (s.setRegs f).dev = s.dev := rfl
@[simp] theorem State.setRegs_D (s : State) (f : Regs → Regs) : (s.setRegs f).D = s.D := rfl
@[simp] theorem State.setRegs_img (s : State) (f : Regs → Regs) : (s.setRegs f).img = s.img := rfl
@[simp] theorem State.setRegs_orig (s : State) (f : Regs → Regs) : (s.setRegs f).orig = s.orig := rfl
@[simp] theorem State.setRegs_regs (s : State) (f : Regs → Regs) : (s.setRegs f).regs = f s.regs := rfl
@[simp] theorem State.setRegs_IF (s : State) (f : Regs → Regs) : (s.setRegs f).IF = s.IF := rfl
@[simp] theorem State.setRegs_tick (s : State) (f : Regs → Regs) : (s.setRegs f).tick = s.tick := rfl
@[simp] theorem State.setRegs_hist (s : State) (f : Regs → Regs) : (s.setRegs f).hist = s.hist := rfl
@[simp] theorem State.setRegs_epc (s : State) (f : Regs → Regs) : (s.setRegs f).epc = s.epc := rfl
@[simp] theorem State.setRegs_msg (s : State) (f : Regs → Regs) : (s.setRegs f).msg = s.msg := rfl
@[simp] theorem State.setRegs_exit (s : State) (f : Regs → Regs) : (s.setRegs f).exit = s.exit := rfl
@[simp] theorem State.setRegs_halted (s : State) (f : Regs → Regs) : (s.setRegs f).halted = s.halted := rfl
@[simp] theorem State.setRegs_err (s : State) (f : Regs → Regs) : (s.setRegs f).err = s.err := rfl
@[simp] theorem State.setRegs_faults (s : State) (f : Regs → Regs) : (s.setRegs f).faults = s.faults := rfl
@[simp] theorem State.setRegs_ram (s : State) (f : Regs → Regs) : (s.setRegs f).ram = s.ram := rfl
@[simp] theorem State.setRegs_sched (s : State) (f : Regs → Regs) : (s.setRegs f).sched = s.sched := rfl
@[simp] theorem State.setRegs_keys (s : State) (f : Regs → Regs) : (s.setRegs f).keys = s.keys := rfl
@[simp] theorem State.setRegs_draws (s : State) (f : Regs → Regs) : (s.setRegs f).draws = s.draws := rfl
@[simp] theorem State.setRegs_queue (s : State) (f : Regs → Regs) : (s.setRegs f).queue = s.queue := rfl

/-! ## setIF -/

@[simp] theorem State.setIF_cfg (s : State) (b : Bool) : (s.setIF b).cfg = s.cfg := rfl
@[simp] theorem State.setIF_dev (s : State) (b : Bool) : (s.setIF b).dev = s.dev := rfl
@[simp] theorem State.setIF_D (s : State) (b : Bool) : (s.setIF b).D = s.D := rfl
@[simp] theorem State.setIF_img (s : State) (b : Bool) : (s.setIF b).img = s.img := rfl
@[simp] theorem State.setIF_orig (s : State) (b : Bool) : (s.setIF b).orig = s.orig := rfl
@[simp] theorem State.setIF_regs (s : State) (b : Bool) : (s.setIF b).regs = s.regs := rfl
@[simp] theorem State.setIF_IF (s : State) (b : Bool) : (s.setIF b).IF = b := rfl
@[simp] theorem State.setIF_tick (s : State) (b : Bool) : (s.setIF b).tick = s.tick := rfl
@[simp] theorem State.setIF_hist (s : State) (b : Bool) : (s.setIF b).hist = s.hist := rfl
@[simp] theorem State.setIF_epc (s : State) (b : Bool) : (s.setIF b).epc = s.epc := rfl
@[simp] theorem State.setIF_msg (s : State) (b : Bool) : (s.setIF b).msg = s.msg := rfl
@[simp] theorem State.setIF_exit (s : State) (b : Bool) : (s.setIF b).exit = s.exit := rfl
@[simp] theorem State.setIF_halted (s : State) (b : Bool) : (s.setIF b).halted = s.halted := rfl
@[simp] theorem State.setIF_err (s : State) (b : Bool) : (s.setIF b).err = s.err := rfl
@[simp] theorem State.setIF_faults (s : State) (b : Bool) : (s.setIF b).faults = s.faults := rfl
@[simp] theorem State.setIF_ram (s : State) (b : Bool) : (s.setIF b).ram = s.ram := rfl
@[simp] theorem State.setIF_sched (s : State) (b : Bool) : (s.setIF b).sched = s.sched := rfl
@[simp] theorem State.setIF_keys (s : State) (b : Bool) : (s.setIF b).keys = s.keys := rfl
@[simp] theorem State.setIF_draws (s : State) (b : Bool) : (s.setIF b).draws = s.draws := rfl
@[simp] theorem State.setIF_queue (s : State) (b : Bool) : (s.setIF b).queue = s.queue := rfl

/-! ## say -/

@[simp] theorem State.say_cfg (s : State) (m : Msg) : (s.say m).cfg = s.cfg := rfl
@[simp] theorem State.say_dev (s : State) (m : Msg) : (s.say m).dev = s.dev := rfl
@[simp] theorem State.say_D (s : State) (m : Msg) : (s.say m).D = s.D := rfl
@[simp] theorem State.say_img (s : State) (m : Msg) : (s.say m).img = s.img := rfl
@[simp] theorem State.say_orig (s : State) (m : Msg) : (s.say m).orig = s.orig := rfl
@[simp] theorem State.say_regs (s : State) (m : Msg) : (s.say m).regs = s.regs := rfl
@[simp] theorem State.say_IF (s : State) (m : Msg) : (s.say m).IF = s.IF := rfl
@[simp] theorem State.say_tick (s : State) (m : Msg) : (s.say m).tick = s.tick := rfl
@[simp] theorem State.say_hist (s : State) (m : Msg) : (s.say m).hist = s.hist := rfl
@[simp] theorem State.say_epc (s : State) (m : Msg) : (s.say m).epc = s.epc := rfl
@[simp] theorem State.say_msg (s : State) (m : Msg) : (s.say m).msg = s.msg ++ [m] := rfl
@[simp] theorem State.say_exit (s : State) (m : Msg) : (s.say m).exit = s.exit := rfl
@[simp] theorem State.say_halted (s : State) (m : Msg) : (s.say m).halted = s.halted := rfl
@[simp] theorem State.say_err (s : State) (m : Msg) : (s.say m).err = s.err := rfl
@[simp] theorem State.say_faults (s : State) (m : Msg) : (s.say m).faults = s.faults := rfl
@[simp] theorem State.say_ram (s : State) (m : Msg) : (s.say m).ram = s.ram := rfl
@[simp] theorem State.say_sched (s : State) (m : Msg) : (s.say m).sched = s.sched := rfl
@[simp] theorem State.say_keys (s : State) (m : Msg) : (s.say m).keys = s.keys := rfl
@[simp] theorem State.say_draws (s : State) (m : Msg) : (s.say m).draws = s.draws := rfl
@[simp] theorem State.say_queue (s : State) (m : Msg) : (s.say m).queue = s.queue := rfl

/-! ## setErr -/

@[simp] theorem State.setErr_cfg (s : State) (e : ErrCause) : (s.setErr e).cfg = s.cfg := rfl
@[simp] theorem State.setErr_dev (s : State) (e : ErrCause) : (s.setErr e).dev = s.dev := rfl
@[simp] theorem State.setErr_D (s : State) (e : ErrCause) : (s.setErr e).D = s.D := rfl
@[simp] theorem State.setErr_img (s : State) (e : ErrCause) : (s.setErr e).img = s.img := rfl
@[simp] theorem State.setErr_orig (s : State) (e : ErrCause) : (s.setErr e).orig = s.orig := rfl
@[simp] theorem State.setErr_regs (s : State) (e : ErrCause) : (s.setErr e).regs = s.regs := rfl
@[simp] theorem State.setErr_IF (s : State) (e : ErrCause) : (s.setErr e).IF = s.IF := rfl
@[simp] theorem State.setErr_tick (s : State) (e : ErrCause) : (s.setErr e).tick = s.tick := rfl
@[simp] theorem State.setErr_hist (s : State) (e : ErrCause) : (s.setErr e).hist = s.hist := rfl
@[simp] theorem State.setErr_epc (s : State) (e : ErrCause) : (s.setErr e).epc = s.epc := rfl
@[simp] theorem State.setErr_msg (s : State) (e : ErrCause) : (s.setErr e).msg = s.msg := rfl
@[simp] theorem State.setErr_exit (s : State) (e : ErrCause) : (s.setErr e).exit = s.exit := rfl
@[simp] theorem State.setErr_halted (s : State) (e : ErrCause) : (s.setErr e).halted = s.halted := rfl
@[simp] theorem State.setErr_err (s : State) (e : ErrCause) : (s.setErr e).err = some e := rfl
@[simp] theorem State.setErr_faults (s : State) (e : ErrCause) : (s.setErr e).faults = s.faults := rfl
@[simp] theorem State.setErr_ram (s : State) (e : ErrCause) : (s.setErr e).ram = s.ram := rfl
@[simp] theorem State.setErr_sched (s : State) (e : ErrCause) : (s.setErr e).sched = s.sched := rfl
@[simp] theorem State.setErr_keys (s : State) (e : ErrCause) : (s.setErr e).keys = s.keys := rfl
@[simp] theorem State.setErr_draws (s : State) (e : ErrCause) : (s.setErr e).draws = s.draws := rfl
@[simp] theorem State.setErr_queue (s : State) (e : ErrCause) : (s.setErr e).queue = s.queue := rfl

/-! ## stop -/

@[simp] theorem State.stop_cfg (s : State) (c : ExitCode) : (s.stop c).cfg = s.cfg := rfl
@[simp] theorem State.stop_dev (s : State) (c : ExitCode) : (s.stop c).dev = s.dev := rfl
@[simp] theorem State.stop_D (s : State) (c : ExitCode) : (s.stop c).D = s.D := rfl
@[simp] theorem State.stop_img (s : State) (c : ExitCode) : (s.stop c).img = s.img := rfl
@[simp] theorem State.stop_orig (s : State) (c : ExitCode) : (s.stop c).orig = s.orig := rfl
@[simp] theorem State.stop_regs (s : State) (c : ExitCode) : (s.stop c).regs = s.regs := rfl
@[simp] theorem State.stop_IF (s : State) (c : ExitCode) : (s.stop c).IF = s.IF := rfl
@[simp] theorem State.stop_tick (s : State) (c : ExitCode) : (s.stop c).tick = s.tick := rfl
@[simp] theorem State.stop_hist (s : State) (c : ExitCode) : (s.stop c).hist = s.hist := rfl
@[simp] theorem State.stop_epc (s : State) (c : ExitCode) : (s.stop c).epc = s.epc := rfl
@[simp] theorem State.stop_msg (s : State) (c : ExitCode) : (s.stop c).msg = s.msg := rfl
@[simp] theorem State.stop_exit (s : State) (c : ExitCode) : (s.stop c).exit = some c := rfl
@[simp] theorem State.stop_halted (s : State) (c : ExitCode) : (s.stop c).halted = s.halted := rfl
@[simp] theorem State.stop_err (s : State) (c : ExitCode) : (s.stop c).err = s.err := rfl
@[simp] theorem State.stop_faults (s : State) (c : ExitCode) : (s.stop c).faults = s.faults := rfl
@[simp] theorem State.stop_ram (s : State) (c : ExitCode) : (s.stop c).ram = s.ram := rfl
@[simp] theorem State.stop_sched (s : State) (c : ExitCode) : (s.stop c).sched = s.sched := rfl
@[simp] theorem State.stop_keys (s : State) (c : ExitCode) : (s.stop c).keys = s.keys := rfl
@[simp] theorem State.stop_draws (s : State) (c : ExitCode) : (s.stop c).draws = s.draws := rfl
@[simp] theorem State.stop_queue (s : State) (c : ExitCode) : (s.stop c).queue = s.queue := rfl

/-! ## fetched -/

@[simp] theorem State.fetched_cfg (s : State) (i : Instr) : (s.fetched i).cfg = s.cfg := rfl
@[simp] theorem State.fetched_dev (s : State) (i : Instr) : (s.fetched i).dev = s.dev := rfl
@[simp] theorem State.fetched_D (s : State) (i : Instr) : (s.fetched i).D = s.D := rfl
@[simp] theorem State.fetched_img (s : State) (i : Instr) : (s.fetched i).img = s.img := rfl
@[simp] theorem State.fetched_orig (s : State) (i : Instr) : (s.fetched i).orig = s.orig := rfl
@[simp] theorem State.fetched_regs (s : State) (i : Instr) : (s.fetched i).regs = s.regs := rfl
@[simp] theorem State.fetched_IF (s : State) (i : Instr) : (s.fetched i).IF = s.IF := rfl
@[simp] theorem State.fetched_tick (s : State) (i : Instr) : (s.fetched i).tick = s.tick := rfl
@[simp] theorem State.fetched_hist (s : State) (i : Instr) : (s.fetched i).hist = s.hist := rfl
@[simp] theorem State.fetched_epc (s : State) (i : Instr) : (s.fetched i).epc = [⟨i, 0⟩] := rfl
@[simp] theorem State.fetched_msg (s : State) (i : Instr) : (s.fetched i).msg = s.msg := rfl
@[simp] theorem State.fetched_exit (s : State) (i : Instr) : (s.fetched i).exit = s.exit := rfl
@[simp] theorem State.fetched_halted (s : State) (i : Instr) : (s.fetched i).halted = s.halted := rfl
@[simp] theorem State.fetched_err (s : State) (i : Instr) : (s.fetched i).err = s.err := rfl
@[simp] theorem State.fetched_faults (s : State) (i : Instr) : (s.fetched i).faults = s.faults := rfl
@[simp] theorem State.fetched_ram (s : State) (i : Instr) : (s.fetched i).ram = s.ram := rfl
@[simp] theorem State.fetched_sched (s : State) (i : Instr) : (s.fetched i).sched = s.sched := rfl
@[simp] theorem State.fetched_keys (s : State) (i : Instr) : (s.fetched i).keys = s.keys := rfl
@[simp] theorem State.fetched_draws (s : State) (i : Instr) : (s.fetched i).draws = s.draws := rfl
@[simp] theorem State.fetched_queue (s : State) (i : Instr) : (s.fetched i).queue = s.queue.drop i.cycles.length := rfl

/-! ## violate -/

@[simp] theorem State.violate_cfg (s : State) : (s.violate).cfg = s.cfg := rfl
@[simp] theorem State.violate_dev (s : State) : (s.violate).dev =
    { s.dev with mode := .indet, fault := true } := rfl
@[simp] theorem State.violate_D (s : State) : (s.violate).D = s.D := rfl
@[simp] theorem State.violate_img (s : State) : (s.violate).img = s.img := rfl
@[simp] theorem State.violate_orig (s : State) : (s.violate).orig = s.orig := rfl
@[simp] theorem State.violate_regs (s : State) : (s.violate).regs = s.regs := rfl
@[simp] theorem State.violate_IF (s : State) : (s.violate).IF = s.IF := rfl
@[simp] theorem State.violate_tick (s : State) : (s.violate).tick = s.tick := rfl
@[simp] theorem State.violate_hist (s : State) : (s.violate).hist = s.hist := rfl
@[simp] theorem State.violate_epc (s : State) : (s.violate).epc = s.epc := rfl
@[simp] theorem State.violate_msg (s : State) : (s.violate).msg = s.msg := rfl
@[simp] theorem State.violate_exit (s : State) : (s.violate).exit = s.exit := rfl
@[simp] theorem State.violate_halted (s : State) : (s.violate).halted = s.halted := rfl
@[simp] theorem State.violate_err (s : State) : (s.violate).err = s.err := rfl
@[simp] theorem State.violate_faults (s : State) : (s.violate).faults =
    if .protocolViolation ∈ s.faults then s.faults else s.faults ++ [.protocolViolation] := rfl
@[simp] theorem State.violate_ram (s : State) : (s.violate).ram = s.ram := rfl
@[simp] theorem State.violate_sched (s : State) : (s.violate).sched = s.sched := rfl
@[simp] theorem State.violate_keys (s : State) : (s.violate).keys = s.keys := rfl
@[simp] theorem State.violate_draws (s : State) : (s.violate).draws = s.draws := rfl
@[simp] theorem State.violate_queue (s : State) : (s.violate).queue = s.queue := rfl

/-! ## EPC with a frame on top -/

theorem State.stmt_of_epc {s : State} {f : Frame} {rest : List Frame} (h : s.epc = f :: rest) : s.stmt = f.idx := by
  simp [State.stmt, h]

theorem State.goto_epc_of {s : State} {f : Frame} {rest : List Frame} (h : s.epc = f :: rest) (k : Nat) :
    (s.goto k).epc = ⟨f.op, k⟩ :: rest := by
  simp [State.goto_epc, h]

@[simp] theorem State.goto_goto (s : State) (j k : Nat) : (s.goto j).goto k = s.goto k := by
  simp only [State.goto]; cases s.epc <;> rfl

@[simp] theorem State.goto_tail (s : State) (k : Nat) : (s.goto k).epc.tail = s.epc.tail := by
  simp only [State.goto_epc]; cases s.epc <;> rfl

end Sys2Proof.Machine
end

