-- ==== Sys2Proof/Laws/Bus.lean ====
section
/-! SUPPORT. Addresses, cycle words, and what one bus cycle can do. -/

namespace Sys2Proof

/-! ## Fields of a device address -/

/-- The low part of two joined words. -/
theorem extract_append_low {n m : Nat} (x : BitVec n) (y : BitVec m) : (x ++ y).extractLsb' 0 m = y := by
  ext i hi
  simp [BitVec.getLsbD_append, hi]

/-- The high part of two joined words. -/
theorem extract_append_high {n m : Nat} (x : BitVec n) (y : BitVec m) : (x ++ y).extractLsb' m n = x := by
  ext i hi
  simp [BitVec.getLsbD_append, hi]

/-- A word is its high part joined to its low part. -/
theorem append_extract {n m : Nat} (x : BitVec (n + m)) : x.extractLsb' m n ++ x.extractLsb' 0 m = x := by
  ext i hi
  rw [BitVec.getElem_append]
  split
  · simp [BitVec.getLsbD_eq_getElem hi]
  · rw [BitVec.getElem_extractLsb', show m + (i - m) = i by omega, BitVec.getLsbD_eq_getElem hi]

@[simp] theorem DevAddr.offset_ofCommand (h : HighBits) (o : BitVec 15) :
    DevAddr.offset (DevAddr.ofCommand h o) = o := extract_append_low h o

@[simp] theorem DevAddr.high_ofCommand (h : HighBits) (o : BitVec 15) :
    DevAddr.high (DevAddr.ofCommand h o) = h := extract_append_high h o

@[simp] theorem DevAddr.sector_ofSector (sec : Sector) (b : BitVec 12) :
    DevAddr.sector (DevAddr.ofSector sec b) = sec := extract_append_high sec b

@[simp] theorem DevAddr.boff_ofSector (sec : Sector) (b : BitVec 12) :
    DevAddr.boff (DevAddr.ofSector sec b) = b := extract_append_low sec b

/-- A device address is its high bits and its command offset. -/
@[simp] theorem DevAddr.ofCommand_eta (a : DevAddr) :
    DevAddr.ofCommand (DevAddr.high a) (DevAddr.offset a) = a := append_extract (n := 4) (m := 15) a

/-- A device address is its sector and its byte offset. -/
@[simp] theorem DevAddr.ofSector_eta (a : DevAddr) :
    DevAddr.ofSector (DevAddr.sector a) (DevAddr.boff a) = a := append_extract (n := 7) (m := 12) a

/-! ## Cycle words -/

theorem Dcw.ofBits_bits (c : Dcw) : Dcw.ofBits c.bits = c := by
  obtain ⟨w, a, v⟩ := c
  simp only [Dcw.ofBits, Dcw.bits, Dcw.mk.injEq]
  refine ⟨?_, ?_, ?_⟩
  · rw [BitVec.getLsbD_setWidth, BitVec.getLsbD_append, BitVec.getLsbD_append]; simp
  · ext i hi
    rw [BitVec.getElem_extractLsb', BitVec.getLsbD_setWidth, BitVec.getLsbD_append, BitVec.getLsbD_append]
    simp [hi, show 8 + i < 28 by omega]
  · ext i hi
    rw [BitVec.getElem_extractLsb', BitVec.getLsbD_setWidth, BitVec.getLsbD_append]
    simp [hi, show i < 28 by omega]

theorem Dcw.map_ofBits_bits (cs : List Dcw) : (cs.map Dcw.bits).map Dcw.ofBits = cs := by
  induction cs with
  | nil => rfl
  | cons c cs ih => rw [List.map_cons, List.map_cons, Dcw.ofBits_bits, ih]

/-- Words of an encoded instruction decode as its cycles do. -/
theorem decodeWords_encode (m : DevMode) (i : Instr) (rest : List Dcw) :
    decodeWords m (encode i ++ rest.map Dcw.bits) = decode m (i.cycles ++ rest) := by
  rw [decodeWords, encode, List.map_append, Dcw.map_ofBits_bits, Dcw.map_ofBits_bits]

/-! ## DEV_MAP -/

/-- The host address chosen for a device address reaches it. -/
theorem Config.devAddr?_of_hostAddr? {c : Config} {a : DevAddr} {p : PhysAddr} (h : c.hostAddr? a = some p) :
    c.devAddr? p = some a := by
  simp only [Config.hostAddr?, Option.map_eq_some_iff] at h
  obtain ⟨block, hb, rfl⟩ := h
  have hs := List.find?_some hb
  have hlt := List.mem_range.mp (List.mem_of_find?_eq_some hb)
  have h1 : (BitVec.ofNat 8 block ++ DevAddr.boff a : BitVec 20).toNat / 0x1000 = block := by
    rw [BitVec.toNat_append, BitVec.toNat_ofNat, Nat.shiftLeft_eq, ← Nat.shiftLeft_eq,
      ← Nat.shiftLeft_add_eq_or_of_lt (DevAddr.boff a).isLt, Nat.shiftLeft_eq]
    have := (DevAddr.boff a).isLt
    omega
  have h2 : (BitVec.ofNat 8 block ++ DevAddr.boff a : BitVec 20).extractLsb' 0 12 = DevAddr.boff a :=
    extract_append_low _ _
  rw [Config.devAddr?, h1, h2]
  simp only [beq_iff_eq] at hs
  simp [hs]

/-- A legal DEV_MAP reaches only sectors the part has (R63). -/
theorem Config.sectorOf?_lt {c : Config} (h : c.wf = true) {b : Nat} {sec : Sector} (hs : c.sectorOf? b = some sec) :
    sec.toNat < c.part.sectors := by
  unfold Config.sectorOf? at hs
  rw [Option.map_eq_some_iff] at hs
  obtain ⟨r, hr, rfl⟩ := hs
  have hp := List.find?_some hr
  simp only [Config.wf, Bool.and_eq_true, List.all_eq_true] at h
  have hw := h.2 r (List.mem_of_find?_eq_some hr)
  simp only [DevRegion.inRange, DevRegion.lowBitsPass, Bool.or_eq_true, Bool.and_eq_true, decide_eq_true_eq] at hw hp
  have h1 : c.part.sectors ≤ 128 := by cases c.part <;> decide
  rw [BitVec.toNat_ofNat]
  obtain ⟨⟨⟨_, h2⟩, _⟩, _⟩ := hw
  rcases h2 with h2 | h2 <;> omega

/-- The sector that an address reaches is its block's (M2 of R63). -/
theorem Config.sector_of_devAddr? {c : Config} {q : PhysAddr} {a : DevAddr} (h : c.devAddr? q = some a) :
    c.sectorOf? (q.toNat / 0x1000) = some (DevAddr.sector a) := by
  unfold Config.devAddr? at h
  rw [Option.map_eq_some_iff] at h
  obtain ⟨sec, h1, rfl⟩ := h
  simpa using h1

theorem DevAddr.toNat_sector (a : DevAddr) : (DevAddr.sector a).toNat = a.toNat / 4096 := by
  simp [DevAddr.sector, BitVec.extractLsb'_toNat, Nat.shiftRight_eq_div_pow]
  have := a.isLt
  omega

/-- A legal DEV_MAP reaches only addresses the part has (R92). -/
theorem Config.devAddr?_lt {c : Config} (h : c.wf = true) {q : PhysAddr} {a : DevAddr} (ha : c.devAddr? q = some a) :
    a.toNat < c.part.devSize := by
  have := Config.sectorOf?_lt h (Config.sector_of_devAddr? ha)
  rw [DevAddr.toNat_sector] at this
  unfold Part.devSize
  simp only [SECTOR]
  omega

namespace Machine

/-! ## Physical addresses -/

theorem toPhys?_of_lt {p : Nat} (h : p < PHYS_SIZE) : toPhys? p = some (BitVec.ofNat 20 p) := if_pos h

theorem toPhys?_of_le {p : Nat} (h : PHYS_SIZE ≤ p) : toPhys? p = none := if_neg (by omega)

@[simp] theorem toPhys?_toNat (q : PhysAddr) : toPhys? q.toNat = some q := by
  rw [toPhys?_of_lt q.isLt]; simp

theorem toPhys?_some {p : Nat} {q : PhysAddr} (h : toPhys? p = some q) : p < PHYS_SIZE ∧ q = BitVec.ofNat 20 p := by
  unfold toPhys? at h
  split at h
  · exact ⟨‹_›, (Option.some.inj h).symm⟩
  · simp at h

theorem toPhys?_none {p : Nat} (h : toPhys? p = none) : PHYS_SIZE ≤ p := by
  unfold toPhys? at h
  split at h
  · simp at h
  · omega

/-! ## Recording a fault -/

theorem State.raise_faults_ne_nil (s : State) (f : FaultKind) : (s.raise f).faults ≠ [] := by
  rw [State.raise_faults]
  split
  · exact fun h => by simp [h] at *
  · simp

theorem State.mem_raise (s : State) (f : FaultKind) : f ∈ (s.raise f).faults := by
  rw [State.raise_faults]; split <;> simp_all

theorem State.faults_subset_raise (s : State) (f : FaultKind) : s.faults ⊆ (s.raise f).faults := by
  rw [State.raise_faults]; split <;> simp

/-! ## What one bus cycle can do -/

/-- The fields no bus cycle changes. -/
structure BusFrame (s t : State) : Prop where
  cfg : t.cfg = s.cfg
  array : t.dev.array = s.dev.array
  D : t.D = s.D
  img : t.img = s.img
  orig : t.orig = s.orig
  regs : t.regs = s.regs
  IF : t.IF = s.IF
  tick : t.tick = s.tick
  epc : t.epc = s.epc
  msg : t.msg = s.msg
  exit : t.exit = s.exit
  halted : t.halted = s.halted
  err : t.err = s.err
  sched : t.sched = s.sched
  keys : t.keys = s.keys
  queue : t.queue = s.queue

/-- A read that is performed appends its entry, keeps the faults and the RAM, and changes the device only by the
mode of an accepted draw. -/
theorem State.busRead_ok {s t : State} {ag : Agent} {p : Nat} {v : Byte} (h : s.busRead ag p = .ok v t) :
    BusFrame s t ∧ t.faults = s.faults ∧ t.ram = s.ram ∧ t.dev.fault = s.dev.fault ∧
      ∃ q, toPhys? p = some q ∧ t.hist = s.hist ++ [⟨ag, .R, q, v⟩] ∧
        ((t.dev = s.dev ∧ t.draws = s.draws) ∨
          ∃ a m, s.cfg.devAddr? q = some a ∧ s.readAnswer a = .draw m ∧ v = s.fresh ∧ t.dev.mode = m ∧
            t.draws = s.draws + 1) := by
  unfold State.busRead at h
  split at h
  · simp at h
  next q hq =>
    split at h
    next a ha =>
      unfold State.devRead at h
      split at h
      · obtain ⟨rfl, rfl⟩ : _ ∧ _ := by simpa using h
        exact ⟨⟨rfl, rfl, rfl, rfl, rfl, rfl, rfl, rfl, rfl, rfl, rfl, rfl, rfl, rfl, rfl, rfl⟩, rfl, rfl, rfl,
          q, hq, rfl, .inl ⟨rfl, rfl⟩⟩
      next m hm =>
        obtain ⟨rfl, rfl⟩ : _ ∧ _ := by simpa using h
        exact ⟨⟨rfl, rfl, rfl, rfl, rfl, rfl, rfl, rfl, rfl, rfl, rfl, rfl, rfl, rfl, rfl, rfl⟩, rfl, rfl, rfl,
          q, hq, rfl, .inr ⟨a, m, ha, hm, rfl, rfl, rfl⟩⟩
      · simp at h
    · obtain ⟨rfl, rfl⟩ : _ ∧ _ := by simpa using h
      exact ⟨⟨rfl, rfl, rfl, rfl, rfl, rfl, rfl, rfl, rfl, rfl, rfl, rfl, rfl, rfl, rfl, rfl⟩, rfl, rfl, rfl,
        q, hq, rfl, .inl ⟨rfl, rfl⟩⟩

/-- A read that is not performed leaves the window; one that is not accepted is a violation (R62, R139). -/
theorem State.busRead_stop {s t : State} {ag : Agent} {p : Nat} (h : s.busRead ag p = .stop t) :
    (toPhys? p = none ∧ t = s.raise (.addressOutOfWindow p)) ∨
      ∃ q a, toPhys? p = some q ∧ s.cfg.devAddr? q = some a ∧ s.readAnswer a = .unaccepted ∧
        t = (s.drawn.log ⟨ag, .R, q, s.fresh⟩).violate := by
  unfold State.busRead at h
  split at h
  next hq => exact .inl ⟨hq, by simpa using h.symm⟩
  next q hq =>
    split at h
    next a ha =>
      unfold State.devRead at h
      split at h
      · simp at h
      · simp at h
      next hn => exact .inr ⟨q, a, hq, ha, hn, by simpa using h.symm⟩
    · simp at h

/-- A write that is performed appends its entry and keeps the faults and the draws; it reaches the device, whose
mode it changes, or under TEST one byte of the RAM. -/
theorem State.busWrite_ok {s t : State} {ag : Agent} {p : Nat} {v x : Byte} (h : s.busWrite ag p v = .ok x t) :
    BusFrame s t ∧ t.faults = s.faults ∧ t.dev.fault = s.dev.fault ∧ t.draws = s.draws ∧
      ∃ q, toPhys? p = some q ∧ t.hist = s.hist ++ [⟨ag, .W, q, v⟩] ∧
        ((∃ a m, s.cfg.devAddr? q = some a ∧ Dev.writeMode s.cfg s.dev.mode a v = some m ∧ t.dev.mode = m ∧
            t.ram = s.ram) ∨
          (s.cfg.devAddr? q = none ∧ s.cfg.memcfg = .test ∧ t.dev = s.dev ∧
            t.ram = Memory.write (blankByte .test) s.ram q.toNat v)) := by
  unfold State.busWrite at h
  split at h
  · simp at h
  next q hq =>
    split at h
    next a ha =>
      unfold State.devWrite at h
      split at h
      next m hm =>
        obtain ⟨rfl, rfl⟩ : _ ∧ _ := by simpa using h
        exact ⟨⟨rfl, rfl, rfl, rfl, rfl, rfl, rfl, rfl, rfl, rfl, rfl, rfl, rfl, rfl, rfl, rfl⟩, rfl, rfl, rfl,
          q, hq, rfl, .inl ⟨a, m, ha, hm, rfl, rfl⟩⟩
      · simp at h
    next ha =>
      split at h
      · simp at h
      next hc =>
        obtain ⟨rfl, rfl⟩ : _ ∧ _ := by simpa using h
        exact ⟨⟨rfl, rfl, rfl, rfl, rfl, rfl, rfl, rfl, rfl, rfl, rfl, rfl, rfl, rfl, rfl, rfl⟩, rfl, rfl, rfl,
          q, hq, rfl, .inr ⟨ha, hc, rfl, rfl⟩⟩

/-- A write that is not performed, or not accepted, and the fault it records (R62, R65, R139). -/
theorem State.busWrite_stop {s t : State} {ag : Agent} {p : Nat} {v : Byte} (h : s.busWrite ag p v = .stop t) :
    (toPhys? p = none ∧ t = s.raise (.addressOutOfWindow p)) ∨
      (∃ q a, toPhys? p = some q ∧ s.cfg.devAddr? q = some a ∧ Dev.writeMode s.cfg s.dev.mode a v = none ∧
        t = (s.log ⟨ag, .W, q, v⟩).violate) ∨
      ∃ q, toPhys? p = some q ∧ s.cfg.devAddr? q = none ∧ s.cfg.memcfg = .real ∧
        t = s.raise (.commandOutsideDevice q) := by
  unfold State.busWrite at h
  split at h
  next hq => exact .inl ⟨hq, by simpa using h.symm⟩
  next q hq =>
    split at h
    next a ha =>
      unfold State.devWrite at h
      split at h
      · simp at h
      next hn => exact .inr (.inl ⟨q, a, hq, ha, hn, by simpa using h.symm⟩)
    next ha =>
      split at h
      next hc => exact .inr (.inr ⟨q, hq, ha, hc, by simpa using h.symm⟩)
      · simp at h

/-! ## The cycles by their answer -/

theorem State.busRead_device {s : State} {ag : Agent} {p : Nat} {q : PhysAddr} {a : DevAddr}
    (hq : toPhys? p = some q) (ha : s.cfg.devAddr? q = some a) : s.busRead ag p = s.devRead ag q a := by
  simp [State.busRead, hq, ha]

theorem State.busRead_other {s : State} {ag : Agent} {p : Nat} {q : PhysAddr}
    (hq : toPhys? p = some q) (ha : s.cfg.devAddr? q = none) :
    s.busRead ag p = .ok (s.otherByte q) (s.log ⟨ag, .R, q, s.otherByte q⟩) := by
  simp [State.busRead, hq, ha]

theorem State.busWrite_device {s : State} {ag : Agent} {p : Nat} {v : Byte} {q : PhysAddr} {a : DevAddr}
    (hq : toPhys? p = some q) (ha : s.cfg.devAddr? q = some a) : s.busWrite ag p v = s.devWrite ag q a v := by
  simp [State.busWrite, hq, ha]

/-- In READ mode a read of the device gives the array byte and changes nothing but HIST (R123). -/
theorem State.devRead_read {s : State} {ag : Agent} {q : PhysAddr} {a : DevAddr} (h : s.dev.mode = .read) :
    s.devRead ag q a = .ok (s.arrayByte a) (s.log ⟨ag, .R, q, s.arrayByte a⟩) := by
  simp [State.devRead, State.readAnswer, h]

/-- An accepted write changes the device's mode and HIST (R122). -/
theorem State.devWrite_accepted {s : State} {ag : Agent} {q : PhysAddr} {a : DevAddr} {v : Byte} {m : DevMode}
    (h : Dev.writeMode s.cfg s.dev.mode a v = some m) :
    s.devWrite ag q a v = .ok v ((s.setMode m).log ⟨ag, .W, q, v⟩) := by
  simp [State.devWrite, h]

/-- A write that is not accepted is a violation (R139). -/
theorem State.devWrite_unaccepted {s : State} {ag : Agent} {q : PhysAddr} {a : DevAddr} {v : Byte}
    (h : Dev.writeMode s.cfg s.dev.mode a v = none) :
    s.devWrite ag q a v = .stop (s.log ⟨ag, .W, q, v⟩).violate := by
  simp [State.devWrite, h]

end Machine

end Sys2Proof
end

