-- ==== Sys2Proof/Laws/Exec.lean ====
section
/-! SUPPORT. What one statement of an instruction can do: said once for the bus and the state around it
(`exec_effect`) and once for EPC (`exec_epc`). -/

namespace Sys2Proof.Machine

/-! ## Every next state of an outcome -/

/-- `P` holds of the next state, if the outcome is one. -/
def NextAll (P : State → Prop) (o : Out) : Prop := ∀ t, o = .next t → P t

variable {P : State → Prop} {α : Type}

@[simp] theorem nextAll_next (t : State) : NextAll P (.next t) ↔ P t :=
  ⟨fun h => h t rfl, fun h u e => by cases e; exact h⟩

@[simp] theorem nextAll_fault (r : Fault) : NextAll P (.fault r) ↔ True :=
  ⟨fun _ => trivial, fun _ _ e => by cases e⟩

@[simp] theorem nextAll_refused (r : Refusal) : NextAll P (.refused r) ↔ True :=
  ⟨fun _ => trivial, fun _ _ e => by cases e⟩

theorem nextAll_need {value : Option α} {name : RegName} {s : State} {k : α → Out}
    (hr : P (s.raise (.unsetRegister name))) (hk : ∀ x, value = some x → NextAll P (k x)) :
    NextAll P (need value name s k) := by
  cases value with
  | none => simpa [need] using hr
  | some x => simpa [need] using hk x rfl

theorem nextAll_needImage {i b : Nat} {s : State} {k : Byte → Out}
    (hk : ∀ v, s.imgByte? i b = some v → NextAll P (k v)) : NextAll P (needImage i b s k) := by
  unfold needImage
  split
  · exact hk _ ‹_›
  · simp

theorem nextAll_engRead {p : Nat} {s : State} {k : Byte → State → State}
    (hok : ∀ v s', s.busRead .eng p = .ok v s' → P (k v s')) (hstop : ∀ s', s.busRead .eng p = .stop s' → P s') :
    NextAll P (engRead p s k) := by
  unfold engRead
  split
  · simpa using hok _ _ ‹_›
  · simpa using hstop _ ‹_›

theorem nextAll_engWrite {p : Nat} {v : Byte} {s : State} {k : State → State}
    (hok : ∀ x s', s.busWrite .eng p v = .ok x s' → P (k s'))
    (hstop : ∀ s', s.busWrite .eng p v = .stop s' → P s') : NextAll P (engWrite p v s k) := by
  unfold engWrite
  split
  · simpa using hok _ _ ‹_›
  · simpa using hstop _ ‹_›

theorem nextAll_engFirstWrite {p : Nat} {v : Byte} {s : State} {k : State → State}
    (hr : P (s.raise .criticalSectionViolation))
    (hok : ∀ x s', s.busWrite .eng p v = .ok x s' → P (k s'))
    (hstop : ∀ s', s.busWrite .eng p v = .stop s' → P s') : NextAll P (engFirstWrite p v s k) := by
  unfold engFirstWrite
  split
  · simpa using hr
  · exact nextAll_engWrite hok hstop

/-! ## The effect on the bus and the state -/

/-- The fields that the engine's own work leaves: all but the registers, IF, EPC, the output, ERR, the pending
keys and the count of draws. -/
structure EngineOnly (s t : State) : Prop where
  cfg : t.cfg = s.cfg
  dev : t.dev = s.dev
  D : t.D = s.D
  img : t.img = s.img
  orig : t.orig = s.orig
  tick : t.tick = s.tick
  hist : t.hist = s.hist
  faults : t.faults = s.faults
  ram : t.ram = s.ram
  sched : t.sched = s.sched
  queue : t.queue = s.queue

theorem EngineOnly.rfl {s : State} : EngineOnly s s :=
  ⟨Eq.refl _, Eq.refl _, Eq.refl _, Eq.refl _, Eq.refl _, Eq.refl _, Eq.refl _, Eq.refl _, Eq.refl _, Eq.refl _,
    Eq.refl _⟩

/-- What one statement does: engine work alone, a fault recorded before any cycle, or exactly one bus cycle of
the engine and then engine work (R38, R67, R263). -/
inductive Effect (s : State) : State → Prop where
  | engine {t} (h : EngineOnly s t) : Effect s t
  | raised (f : FaultKind) (hf : f ≠ .protocolViolation) : Effect s (s.raise f)
  | read {t} (p : Nat) (v : Byte) (u : State) (hb : s.busRead .eng p = .ok v u) (h : EngineOnly u t) : Effect s t
  | readStop {t} (p : Nat) (hb : s.busRead .eng p = .stop t) : Effect s t
  | write {t} (p : Nat) (v x : Byte) (u : State) (hb : s.busWrite .eng p v = .ok x u) (h : EngineOnly u t) :
      Effect s t
  | writeStop {t} (p : Nat) (v : Byte) (hb : s.busWrite .eng p v = .stop t) : Effect s t

variable {s t : State}

theorem EngineOnly.keyTaken (h : EngineOnly s t) : EngineOnly s t.keyTaken := by
  unfold State.keyTaken
  split <;> exact ⟨h.cfg, h.dev, h.D, h.img, h.orig, h.tick, h.hist, h.faults, h.ram, h.sched, h.queue⟩

theorem EngineOnly.keyTakenSet {f : Regs → Regs} {k : Nat} :
    EngineOnly s ((s.keyTaken.setRegs f).goto k) :=
  let h := (EngineOnly.rfl (s := s)).keyTaken
  ⟨h.cfg, h.dev, h.D, h.img, h.orig, h.tick, h.hist, h.faults, h.ram, h.sched, h.queue⟩

/-- A statement of engine work alone. -/
theorem nextAll_engine (h : EngineOnly s t) : NextAll (Effect s) (.next t) := (nextAll_next t).2 (.engine h)

/-- A statement that reads a register. -/
theorem nextAll_need_effect {value : Option α} {name : RegName} {k : α → Out}
    (hk : ∀ x, value = some x → NextAll (Effect s) (k x)) : NextAll (Effect s) (need value name s k) :=
  nextAll_need (.raised _ (by simp)) hk

/-- A statement of one read. -/
theorem nextAll_engRead_effect {p : Nat} {k : Byte → State → State}
    (hk : ∀ v u, EngineOnly u (k v u)) : NextAll (Effect s) (engRead p s k) :=
  nextAll_engRead (fun v u hb => .read p v u hb (hk v u)) fun _ hb => .readStop p hb

/-- A statement of one write. -/
theorem nextAll_engWrite_effect {p : Nat} {v : Byte} {k : State → State}
    (hk : ∀ u, EngineOnly u (k u)) : NextAll (Effect s) (engWrite p v s k) :=
  nextAll_engWrite (fun x u hb => .write p v x u hb (hk u)) fun _ hb => .writeStop p v hb

/-- A statement of a first write. -/
theorem nextAll_engFirstWrite_effect {p : Nat} {v : Byte} {k : State → State}
    (hk : ∀ u, EngineOnly u (k u)) : NextAll (Effect s) (engFirstWrite p v s k) :=
  nextAll_engFirstWrite (.raised _ (by simp)) (fun x u hb => .write p v x u hb (hk u)) fun _ hb => .writeStop p v hb

/-- A cycle of a device command. -/
theorem nextAll_issueCycle_effect (i : Instr) : NextAll (Effect s) (issueCycle i s) := by
  unfold issueCycle
  split
  · simp
  · split
    · simp
    · have hk : ∀ u, EngineOnly u (if s.stmt + 1 < i.cycles.length then u.goto (s.stmt + 1) else u.ret) := by
        intro u; split <;> exact ⟨rfl, rfl, rfl, rfl, rfl, rfl, rfl, rfl, rfl, rfl, rfl⟩
      dsimp only
      split
      · exact nextAll_engWrite_effect hk
      · exact nextAll_engRead_effect fun _ => hk

/-- What every statement of every instruction can do. -/
theorem exec_effect_all (i : Instr) (s : State) : NextAll (Effect s) (exec i s) := by
  cases i with
  | readArray | swidEntry | swidRead | swidExit | sectorErase | byteProgram | statusRead =>
    exact nextAll_issueCycle_effect _
  | poll | cal | waitProgram | waitErase | csEnter | csExit | detect | idDecode | eraseSector | programByte | plan
  | overlap | compareBlock | flash | verify | run | halt =>
    dsimp only [exec]
    first
      | unfold execPoll | unfold execCal | unfold execWaitProgram | unfold execWaitErase | unfold execCsEnter
      | unfold execCsExit | unfold execDetect | unfold execIdDecode idTest idSet | unfold execEraseSector
      | unfold execProgramByte | unfold execPlan | unfold execOverlap | unfold execCompareBlock
      | unfold execFlash | unfold execVerify | unfold execRun | unfold execHalt
    split <;>
      repeat' first
        | with_reducible exact (nextAll_fault _).2 trivial
        | with_reducible refine nextAll_need_effect fun _ _ => ?_
        | with_reducible refine nextAll_needImage fun _ _ => ?_
        | with_reducible refine nextAll_engRead_effect fun _ _ => ?_
        | with_reducible refine nextAll_engWrite_effect fun _ => ?_
        | with_reducible refine nextAll_engFirstWrite_effect fun _ => ?_
        | with_reducible refine nextAll_engine ?_
        | exact EngineOnly.keyTakenSet
        | exact ⟨rfl, rfl, rfl, rfl, rfl, rfl, rfl, rfl, rfl, rfl, rfl⟩

/-- What a statement can do (R38, R67, R263). -/
theorem exec_effect {i : Instr} (h : exec i s = .next t) : Effect s t := exec_effect_all i s t h

/-! ## The effect on EPC -/

/-- What one statement of `i` does to EPC (R38): it stays (a fault, EXIT or HALT), moves to a statement of its
procedure, returns, or calls a procedure of lower rank. -/
inductive EpcStep (i : Instr) (e : List Frame) : List Frame → Prop where
  | stay : EpcStep i e e
  | goto (k : Nat) (hk : k < i.length) :
      EpcStep i e (match e with | f :: rest => { f with idx := k } :: rest | [] => [])
  | ret : EpcStep i e e.tail
  | call (j : Instr) (k : Nat) (hj : j.rank < i.rank) (hk : k < i.length) (hl : 0 < j.length) :
      EpcStep i e (⟨j, 0⟩ :: match e with | f :: rest => { f with idx := k } :: rest | [] => [])

variable {i : Instr}

theorem State.busRead_ok_epc {ag : Agent} {p : Nat} {v : Byte} (h : s.busRead ag p = .ok v t) : t.epc = s.epc :=
  (State.busRead_ok h).1.epc

theorem State.busRead_stop_epc {ag : Agent} {p : Nat} (h : s.busRead ag p = .stop t) : t.epc = s.epc := by
  rcases State.busRead_stop h with ⟨_, rfl⟩ | ⟨_, _, _, _, _, rfl⟩ <;> rfl

theorem State.busWrite_ok_epc {ag : Agent} {p : Nat} {v x : Byte} (h : s.busWrite ag p v = .ok x t) :
    t.epc = s.epc :=
  (State.busWrite_ok h).1.epc

theorem State.busWrite_stop_epc {ag : Agent} {p : Nat} {v : Byte} (h : s.busWrite ag p v = .stop t) :
    t.epc = s.epc := by
  rcases State.busWrite_stop h with ⟨_, rfl⟩ | ⟨_, _, _, _, _, rfl⟩ | ⟨_, _, _, _, rfl⟩ <;> rfl

theorem lt_of_ite {c : Prop} [Decidable c] {j k n : Nat} (hj : j < n) (hk : k < n) :
    (if c then j else k) < n := by
  split <;> assumption

/-- `EpcStep` between the EPCs of two states. -/
def EpcMove (i : Instr) (s t : State) : Prop := EpcStep i s.epc t.epc

theorem nextAll_need_epc {value : Option α} {name : RegName} {k : α → Out}
    (hk : ∀ x, value = some x → NextAll (EpcMove i s) (k x)) : NextAll (EpcMove i s) (need value name s k) :=
  nextAll_need .stay hk

theorem nextAll_engRead_epc {p : Nat} {k : Byte → State → State}
    (hk : ∀ v u, EpcMove i u (k v u)) : NextAll (EpcMove i s) (engRead p s k) :=
  nextAll_engRead (fun v u hb => by have h := hk v u; rwa [EpcMove, State.busRead_ok_epc hb] at h)
    fun u hb => by rw [EpcMove, State.busRead_stop_epc hb]; exact .stay

theorem nextAll_engWrite_epc {p : Nat} {v : Byte} {k : State → State}
    (hk : ∀ u, EpcMove i u (k u)) : NextAll (EpcMove i s) (engWrite p v s k) :=
  nextAll_engWrite (fun x u hb => by have h := hk u; rwa [EpcMove, State.busWrite_ok_epc hb] at h)
    fun u hb => by rw [EpcMove, State.busWrite_stop_epc hb]; exact .stay

theorem nextAll_engFirstWrite_epc {p : Nat} {v : Byte} {k : State → State}
    (hk : ∀ u, EpcMove i u (k u)) : NextAll (EpcMove i s) (engFirstWrite p v s k) := by
  unfold engFirstWrite
  split
  · exact (nextAll_next _).2 .stay
  · exact nextAll_engWrite_epc hk

theorem EpcMove.goto {u : State} (hu : u.epc = s.epc) {k : Nat} (hk : k < i.length) : EpcMove i s (u.goto k) := by
  rw [EpcMove, State.goto_epc, hu]; exact .goto k hk

theorem EpcMove.ret {u : State} (hu : u.epc = s.epc) : EpcMove i s u.ret := by
  rw [EpcMove, State.ret_epc, hu]; exact .ret

theorem EpcMove.call {u : State} (hu : u.epc = s.epc) {j : Instr} {k : Nat} (hj : j.rank < i.rank)
    (hk : k < i.length) (hl : 0 < j.length) : EpcMove i s (u.call j k) := by
  rw [EpcMove, State.call_epc, State.goto_epc, hu]; exact .call j k hj hk hl

theorem nextAll_issueCycle_epc (h : i.cycles.length ≤ i.length) : NextAll (EpcMove i s) (issueCycle i s) := by
  unfold issueCycle
  split
  · simp
  · split
    · simp
    · have hk : ∀ u, EpcMove i u (if s.stmt + 1 < i.cycles.length then u.goto (s.stmt + 1) else u.ret) := by
        intro u; split
        · exact EpcMove.goto rfl (by omega)
        · exact EpcMove.ret rfl
      dsimp only
      split
      · exact nextAll_engWrite_epc hk
      · exact nextAll_engRead_epc fun _ => hk

theorem State.keyTaken_epc (s : State) : s.keyTaken.epc = s.epc := by
  unfold State.keyTaken; split <;> rfl

theorem calStart_lt (c : MemCfg) : (match c with | .real => 1 | .test => 11) < 12 := by
  cases c <;> decide

/-- What every statement of every instruction does to EPC. -/
theorem exec_epc_all (i : Instr) (s : State) : NextAll (EpcMove i s) (exec i s) := by
  cases i with
  | readArray | swidEntry | swidRead | swidExit | sectorErase | byteProgram | statusRead =>
    exact nextAll_issueCycle_epc (by simp [Instr.cycles, Instr.length])
  | poll | cal | waitProgram | waitErase | csEnter | csExit | detect | idDecode | eraseSector | programByte | plan
  | overlap | compareBlock | flash | verify | run | halt =>
    dsimp only [exec]
    first
      | unfold execPoll | unfold execCal | unfold execWaitProgram | unfold execWaitErase | unfold execCsEnter
      | unfold execCsExit | unfold execDetect | unfold execIdDecode idTest idSet | unfold execEraseSector
      | unfold execProgramByte | unfold execPlan | unfold execOverlap | unfold execCompareBlock
      | unfold execFlash | unfold execVerify | unfold execRun | unfold execHalt
    split <;>
      repeat' first
        | with_reducible exact (nextAll_fault _).2 trivial
        | with_reducible refine nextAll_need_epc fun _ _ => ?_
        | with_reducible refine nextAll_needImage fun _ _ => ?_
        | with_reducible refine nextAll_engRead_epc fun _ _ => ?_
        | with_reducible refine nextAll_engWrite_epc fun _ => ?_
        | with_reducible refine nextAll_engFirstWrite_epc fun _ => ?_
        | with_reducible refine (nextAll_next _).2 ?_
        | refine EpcMove.goto (State.keyTaken_epc _) ?_
        | exact EpcMove.ret rfl
        | refine EpcMove.goto rfl ?_
        | refine EpcMove.call rfl ?_ ?_ ?_
        | exact EpcStep.stay
        | exact calStart_lt _
        | exact of_decide_eq_true rfl
        | exact lt_of_ite (of_decide_eq_true rfl) (of_decide_eq_true rfl)

/-- What a statement does to EPC (R38). -/
theorem exec_epc (h : exec i s = .next t) : EpcStep i s.epc t.epc := exec_epc_all i s t h

end Sys2Proof.Machine
end

