-- ==== Sys2Proof/Laws/PerInstr.lean ====
section
/-! SUPPORT. The families of per-instruction statements: `Cycles`, about an instruction's words. -/

namespace Sys2Proof.Laws.Cycles

/-- A device command has one 28-bit word per cycle and one cycle per statement, and its words read back as its
cycles; an engine operation has no word (R92, R93, R100). -/
def Statement (i : Instr) : Prop :=
  (encode i).map Dcw.ofBits = i.cycles ∧ (encode i = [] ∨ (encode i).length = i.length)

/-- A device command whose cycles are as many as its statements. -/
theorem statement_of_length {i : Instr} (h : i.cycles.length = i.length) : Statement i :=
  ⟨Dcw.map_ofBits_bits i.cycles, .inr (by rw [encode, List.length_map, h])⟩

/-- An engine operation. -/
theorem statement_of_nil {i : Instr} (h : i.cycles = []) : Statement i :=
  ⟨Dcw.map_ofBits_bits i.cycles, .inl (by rw [encode, h]; rfl)⟩

theorem readArray (a : DevAddr) (v : Byte) : Statement (.readArray a v) := statement_of_length rfl

theorem swidEntry (h1 h2 h3 : HighBits) : Statement (.swidEntry h1 h2 h3) := statement_of_length rfl

theorem swidRead (a : DevAddr) (v : Byte) : Statement (.swidRead a v) := statement_of_length rfl

theorem swidExit (h1 : HighBits) : Statement (.swidExit h1) := statement_of_length rfl

theorem sectorErase (h1 h2 h3 h4 h5 : HighBits) (sec : Sector) : Statement (.sectorErase h1 h2 h3 h4 h5 sec) := statement_of_length rfl

theorem byteProgram (h1 h2 h3 : HighBits) (a : DevAddr) (d : Byte) : Statement (.byteProgram h1 h2 h3 a d) := statement_of_length rfl

theorem statusRead (a : DevAddr) (v : Byte) : Statement (.statusRead a v) := statement_of_length rfl

theorem poll (p : Nat) (v : Byte) (k : Count) : Statement (.poll p v k) := statement_of_nil rfl

theorem cal (D : Operand Seg) : Statement (.cal D) := statement_of_nil rfl

theorem waitProgram (p : Nat) (v : Byte) : Statement (.waitProgram p v) := statement_of_nil rfl

theorem waitErase (p : Nat) : Statement (.waitErase p) := statement_of_nil rfl

theorem csEnter : Statement .csEnter := statement_of_nil rfl

theorem csExit : Statement .csExit := statement_of_nil rfl

theorem detect (S D : Operand Seg) : Statement (.detect S D) := statement_of_nil rfl

theorem idDecode (VID DID : Operand Byte) : Statement (.idDecode VID DID) := statement_of_nil rfl

theorem eraseSector (S : Operand Seg) (p : Nat) : Statement (.eraseSector S p) := statement_of_nil rfl

theorem programByte (S : Operand Seg) (p : Nat) (v : Byte) : Statement (.programByte S p v) := statement_of_nil rfl

theorem plan (D : Operand Seg) (L : Operand Nat) : Statement (.plan D L) := statement_of_nil rfl

theorem overlap (S D : Operand Seg) (L : Operand Nat) : Statement (.overlap S D L) := statement_of_nil rfl

theorem compareBlock (i : Nat) : Statement (.compareBlock i) := statement_of_nil rfl

theorem flash : Statement .flash := statement_of_nil rfl

theorem verify : Statement .verify := statement_of_nil rfl

theorem run : Statement .run := statement_of_nil rfl

theorem halt : Statement .halt := statement_of_nil rfl

end Sys2Proof.Laws.Cycles
end

