-- ==== Sys2Proof/Laws/Step.lean ====
section
/-! SUPPORT. What one step of the machine can be: said once for every invariant that steps keep. -/

namespace Sys2Proof.Machine

variable {s t : State}

/-! ## The choice of the move -/

@[simp] theorem State.moveTaken_dev (s : State) : s.moveTaken.dev = s.dev := by unfold State.moveTaken; split <;> rfl
@[simp] theorem State.moveTaken_cfg (s : State) : s.moveTaken.cfg = s.cfg := by unfold State.moveTaken; split <;> rfl
@[simp] theorem State.moveTaken_D (s : State) : s.moveTaken.D = s.D := by unfold State.moveTaken; split <;> rfl
@[simp] theorem State.moveTaken_img (s : State) : s.moveTaken.img = s.img := by unfold State.moveTaken; split <;> rfl
@[simp] theorem State.moveTaken_orig (s : State) : s.moveTaken.orig = s.orig := by
  unfold State.moveTaken; split <;> rfl
@[simp] theorem State.moveTaken_regs (s : State) : s.moveTaken.regs = s.regs := by
  unfold State.moveTaken; split <;> rfl
@[simp] theorem State.moveTaken_IF (s : State) : s.moveTaken.IF = s.IF := by unfold State.moveTaken; split <;> rfl
@[simp] theorem State.moveTaken_tick (s : State) : s.moveTaken.tick = s.tick := by
  unfold State.moveTaken; split <;> rfl
@[simp] theorem State.moveTaken_hist (s : State) : s.moveTaken.hist = s.hist := by
  unfold State.moveTaken; split <;> rfl
@[simp] theorem State.moveTaken_epc (s : State) : s.moveTaken.epc = s.epc := by unfold State.moveTaken; split <;> rfl
@[simp] theorem State.moveTaken_msg (s : State) : s.moveTaken.msg = s.msg := by unfold State.moveTaken; split <;> rfl
@[simp] theorem State.moveTaken_exit (s : State) : s.moveTaken.exit = s.exit := by
  unfold State.moveTaken; split <;> rfl
@[simp] theorem State.moveTaken_halted (s : State) : s.moveTaken.halted = s.halted := by
  unfold State.moveTaken; split <;> rfl
@[simp] theorem State.moveTaken_err (s : State) : s.moveTaken.err = s.err := by unfold State.moveTaken; split <;> rfl
@[simp] theorem State.moveTaken_faults (s : State) : s.moveTaken.faults = s.faults := by
  unfold State.moveTaken; split <;> rfl
@[simp] theorem State.moveTaken_ram (s : State) : s.moveTaken.ram = s.ram := by unfold State.moveTaken; split <;> rfl
@[simp] theorem State.moveTaken_keys (s : State) : s.moveTaken.keys = s.keys := by
  unfold State.moveTaken; split <;> rfl
@[simp] theorem State.moveTaken_queue (s : State) : s.moveTaken.queue = s.queue := by
  unfold State.moveTaken; split <;> rfl

/-! ## The steps -/

/-- What an ENG step is when it answers a next state. -/
inductive EngCase (s t : State) : Prop where
  /-- The run has ended, or nothing runs and nothing waits. -/
  | idle (h : t = s)
  /-- The statement that the top frame names. -/
  | frame (f : Frame) (rest : List Frame) (he : s.epc = f :: rest) (h : exec f.op s = .next t)
  /-- The first cycle of the device command at the head of the queue. -/
  | fetch (i : Instr) (rest : List Dcw) (he : s.epc = []) (hd : decodeWords s.dev.mode s.queue = .ok (i, rest))
      (hw : i.wf s.cfg.part = true) (h : exec i (s.fetched i) = .next t)
  /-- One cycle that begins no command. -/
  | word (w : CycleWord) (ws : List CycleWord) (he : s.epc = []) (hq : s.queue = w :: ws)
      (h : issueWord (Dcw.ofBits w) { s with queue := ws } = .next t)

theorem engStep_cases (h : engStep s = .next t) : EngCase s t := by
  unfold engStep at h
  split at h
  · exact .idle (by simpa using h.symm)
  · split at h
    next f rest he => exact .frame f rest he h
    next he =>
      unfold fetchStep at h
      split at h
      · exact .idle (by simpa using h.symm)
      next w ws hq =>
        split at h
        next i rest hd =>
          split at h
          next hw => exact .fetch i rest he hd hw h
          · simp at h
        · exact .word w ws he hq h

/-- What a step is when it answers a next state (R12, R263): no fault is recorded, and one agent moves. -/
inductive StepCase (s t : State) : Prop where
  | eng (hm : s.nextMove = .eng) (h : EngCase s.moveTaken t)
  | dev (hm : s.nextMove = .dev) (h : t = s.moveTaken.complete)
  | tick (hm : s.nextMove = .tick) (h : t = s.moveTaken.tickStep)
  | isr (p : PhysAddr) (hm : s.nextMove = .isr p) (h : isrStep p s.moveTaken = .next t)

theorem step_cases (h : step s = .next t) : s.faults = [] ∧ StepCase s t := by
  unfold step machineStep at h
  split at h
  · simp at h
  next hf =>
    refine ⟨hf, ?_⟩
    unfold agentStep at h
    split at h
    next hm => exact .eng hm (engStep_cases h)
    next hm => exact .dev hm (by simpa using h.symm)
    next hm => exact .tick hm (by simpa using h.symm)
    next p hm => exact .isr p hm h

/-- What an ISR step is when it answers a next state (R265). -/
theorem isrStep_cases {p : PhysAddr} (h : isrStep p s = .next t) :
    (s.IF = false ∧ t = s) ∨
      (s.IF = true ∧ ((∃ v, s.busRead .isr p.toNat = .ok v t) ∨ s.busRead .isr p.toNat = .stop t)) := by
  unfold isrStep at h
  split at h
  next hi =>
    split at h
    next v u hb => exact .inr ⟨hi, .inl ⟨v, by rw [hb, show u = t by simpa using h]⟩⟩
    next u hb => exact .inr ⟨hi, .inr (by rw [hb, show u = t by simpa using h])⟩
  next hi => exact .inl ⟨by simpa using hi, by simpa using h.symm⟩

/-- A power cycle keeps the canonical form of the array (R295). -/
theorem State.persisted_wf (h : Memory.wf (blankByte s.cfg.memcfg) s.cfg.part.devSize s.dev.array)
    (hb : s.dev.mode.inPart s.cfg.part) :
    Memory.wf (blankByte s.cfg.memcfg) s.cfg.part.devSize s.persisted := by
  unfold State.persisted
  split
  next sec hm =>
    rw [hm] at hb
    refine Memory.writeEach_wf h fun k hk => ?_
    have hb : sec.toNat + 1 ≤ s.cfg.part.sectors := hb
    have hk : k < (sec.toNat + 1) * SECTOR := Nat.succ_mul _ _ ▸ (List.mem_range'_1.mp hk).2
    exact Nat.lt_of_lt_of_le hk (Nat.mul_le_mul_right SECTOR hb)
  next pa _ hm =>
    rw [hm] at hb
    exact Memory.write_wf h hb
  all_goals exact h

/-- A power cycle leaves every byte outside the sector being erased and the byte being programmed (R295). -/
theorem State.read_persisted {a : DevAddr} (h1 : ∀ sec, s.dev.mode = .ebusy sec → DevAddr.sector a ≠ sec)
    (h2 : ∀ pa pd, s.dev.mode = .pbusy pa pd → a ≠ pa) :
    Memory.read (blankByte s.cfg.memcfg) s.persisted a.toNat = s.arrayByte a := by
  unfold State.persisted
  split
  next sec hm =>
    refine Memory.read_writeEach fun hk => h1 sec hm ?_
    have hk := List.mem_range'_1.mp hk
    apply BitVec.eq_of_toNat_eq
    rw [DevAddr.toNat_sector]
    simp only [SECTOR] at hk
    omega
  next pa pd hm => rw [Memory.read_write, if_neg fun h => h2 pa pd hm (BitVec.eq_of_toNat_eq h)]; rfl
  all_goals rfl

/-- A cycle that begins no command has the effect of one bus cycle. -/
theorem issueWord_effect {c : Dcw} (h : issueWord c s = .next t) : Effect s t := by
  have : NextAll (Effect s) (issueWord c s) := by
    unfold issueWord
    split
    · simp
    · split
      · exact nextAll_engWrite_effect fun _ => .rfl
      · exact nextAll_engRead_effect fun _ _ => .rfl
  exact this t h

end Sys2Proof.Machine
end

