-- ==== Sys2Proof/Tests/Slice0.lean ====
section
/-! SUPPORT. Tests: ill-formed terms that the checks refuse, the vectors of spec/95_test_vectors.md one step at a time,
and for every statement with hypotheses a state that meets them. -/

namespace Sys2Proof.Tests

open Sys2Proof.Machine

/-! ## Small states -/

/-- The state after reset, at statement `k` of `i`. -/
def at_ (i : Instr) (k : Nat) : State := { State.reset with epc := [⟨i, k⟩] }

/-- The device in mode `m`. -/
def inMode (m : DevMode) (s : State) : State := s.setMode m

/-- Under MEMCFG = TEST (P4 of 95). -/
def testState (s : State) : State := { s with cfg := { mapC with memcfg := .test, calSentinel := 4 } }

/-- The next state of an outcome. -/
def next? (o : Out) : Option State :=
  match o with
  | .next t => some t
  | .fault _ => none
  | .refused _ => none

/-! ## Well-formedness: an ill-formed term for each check -/

theorem test_wf_readArray : Instr.wf .SST39SF010 (.readArray 0x20000 0) = false := by decide
theorem test_wf_swidRead : Instr.wf .SST39SF512 (.swidRead 0x10000 0) = false := by decide
theorem test_wf_statusRead : Instr.wf .SST39SF020 (.statusRead 0x40000 0) = false := by decide
theorem test_wf_swidEntry_first : Instr.wf .SST39SF010 (.swidEntry 4 0 0) = false := by decide
theorem test_wf_swidEntry_second : Instr.wf .SST39SF010 (.swidEntry 0 4 0) = false := by decide
theorem test_wf_swidEntry_third : Instr.wf .SST39SF010 (.swidEntry 0 0 4) = false := by decide
theorem test_wf_swidExit : Instr.wf .SST39SF512 (.swidExit 2) = false := by decide
theorem test_wf_sectorErase_high : Instr.wf .SST39SF010 (.sectorErase 0 0 0 0 4 0) = false := by decide
theorem test_wf_sectorErase_sector : Instr.wf .SST39SF010 (.sectorErase 0 0 0 0 0 32) = false := by decide
theorem test_wf_byteProgram_high : Instr.wf .SST39SF010 (.byteProgram 0 0 4 0 0) = false := by decide
theorem test_wf_byteProgram_address : Instr.wf .SST39SF010 (.byteProgram 0 0 0 0x20000 0) = false := by decide
theorem test_wf_compareBlock : Instr.wf .SST39SF010 (.compareBlock 64) = false := by decide

/-- MAP_C of 95 is legal; each of the rest breaks one condition of R7 or R63. -/
theorem test_cfg_wf : Config.wf mapC = true := by decide
theorem test_cfg_wf_idReads : Config.wf { mapC with idReads := 2 } = false := by decide
theorem test_cfg_wf_lowBits : Config.wf { mapC with devMap := [⟨0xC1, 8, 0⟩] } = false := by decide
theorem test_cfg_wf_sectors : Config.wf { mapC with devMap := [⟨0xC0, 32, 8⟩] } = false := by decide
theorem test_cfg_wf_space : Config.wf { mapC with devMap := [⟨0xF8, 16, 0⟩] } = false := by decide
theorem test_cfg_wf_tick : Config.wf { mapC with tickAddr := 0xC0010 } = false := by decide
theorem test_cfg_wf_upper : Config.wf { mapC with devMap := [⟨0x10, 8, 0⟩] } = false := by decide

/-- The launch inputs (R210). -/
theorem test_legalD_low : legalD 0x9F00 = false := by decide
theorem test_legalD_high : legalD 0xF900 = false := by decide
theorem test_legalD_multiple : legalD 0xC880 = false := by decide
theorem test_legalD_ends : legalD 0xA000 = true ∧ legalD 0xF800 = true := by decide
theorem test_legalK_odd : legalK (some 3) = false := by decide
theorem test_legalK_ends : legalK (some 0) = false ∧ legalK (some 2) = true ∧ legalK (some 256) = true ∧
    legalK (some 258) = false := by decide

/-- A memory that lists a byte it would read anyway, or addresses out of order, is not canonical. -/
theorem test_memory_wf_blank : ¬ Memory.wf 0xFF 0x20000 [(3, 0xFF)] := by decide
theorem test_memory_wf_order : ¬ Memory.wf 0xFF 0x20000 [(3, 0), (3, 1)] := by decide
theorem test_memory_wf_size : ¬ Memory.wf 0xFF 0x20000 [(0x20000, 0)] := by decide
theorem test_reset_memory : Memory.wf 0xFF 0x20000 State.reset.dev.array ∧
    Memory.wf 0xAA PHYS_SIZE State.reset.ram := by decide

/-! ## Encoding: section 2.1 of 95, under MAP_C -/

/-- `C800:5555 ← 0xAA` as a host cycle, and `read C800:0 → 0xBF`. -/
theorem test_hbc : BusEvent.hbc ⟨.eng, .W, 0xCD555, 0xAA⟩ = 0x1CD555AA ∧
    BusEvent.hbc ⟨.eng, .R, 0xC8000, 0xBF⟩ = 0x0C8000BF := by decide

/-- The same cycles as the device sees them. -/
theorem test_dcw : Dcw.bits ⟨true, 0x0D555, 0xAA⟩ = 0x8D555AA ∧ Dcw.bits ⟨true, 0x15555, 0xAA⟩ = 0x95555AA := by decide

theorem test_devMap : mapC.devAddr? 0xCD555 = some 0x0D555 ∧ mapC.devAddr? 0xDFFFF = some 0x1FFFF ∧
    mapC.devAddr? 0xBFFFF = none ∧ mapC.devAddr? 0xE0000 = none := by decide

theorem test_hostAddr : mapC.hostAddr? 0x0D555 = some 0xCD555 ∧ mapC.hostAddr? 0x20000 = none := by decide

theorem test_decode_swidEntry :
    decodeWords .read [0x8D555AA, 0x8AAAA55, 0x8D55590] = .ok (.swidEntry 1 1 1, []) := by decide

theorem test_decode_swidEntry_otherWindow :
    decodeWords .read [0x9D555AA, 0x8AAAA55, 0x8D55590] = .ok (.swidEntry 3 1 1, []) := by decide

theorem test_decode_swidExit : decodeWords (.id 0) [0x8D555F0] = .ok (.swidExit 1, []) := by decide

/-- The device mode selects which of the three reads a read is (R101). -/
theorem test_decode_reads : decodeWords .read [0x08001B5] = .ok (.readArray 0x08001 0xB5, []) ∧
    decodeWords (.id 1) [0x08001B5] = .ok (.swidRead 0x08001 0xB5, []) ∧
    decodeWords (.pbusy 0 0) [0x08001B5] = .ok (.statusRead 0x08001 0xB5, []) := by decide

theorem test_decode_sectorErase :
    decodeWords .read [0x8D555AA, 0x8AAAA55, 0x8D55580, 0x8D555AA, 0x8AAAA55, 0x8900030] =
      .ok (.sectorErase 1 1 1 1 1 9, []) := by decide

theorem test_decode_byteProgram :
    decodeWords .read [0x8D555AA, 0x8AAAA55, 0x8D555A0, 0x8800012] = .ok (.byteProgram 1 1 1 0x08000 0x12, []) := by
  decide

/-- R97: BOFF ≠ 0 in the sixth cycle, a chip-erase byte, a third byte of no command, a bare write, a read in U1. -/
theorem test_decode_rejects :
    decodeWords .read [0x8D555AA, 0x8AAAA55, 0x8D55580, 0x8D555AA, 0x8AAAA55, 0x8800130] =
      .error (.eraseConfirm ⟨true, 0x08001, 0x30⟩) ∧
    decodeWords .read [0x8D555AA, 0x8AAAA55, 0x8D55580, 0x8D555AA, 0x8AAAA55, 0x8D55510] =
      .error (.eraseConfirm ⟨true, 0x0D555, 0x10⟩) ∧
    decodeWords .read [0x8D555AA, 0x8AAAA55, 0x8D55510] = .error (.commandByte ⟨true, 0x0D555, 0x10⟩) ∧
    decodeWords .read [0x8800012] = .error (.firstWrite ⟨true, 0x08000, 0x12⟩) ∧
    decodeWords (.u1 .read) [0x08000BF] = .error (.readInMode (.u1 .read)) := by decide

/-- The numbers of spec/opcode_table.json with every operand bit 0. -/
theorem test_table :
    decodeTableWord 28 0x0000000 = some (.readArray 0 0) ∧
    decodeTableWord 84 0x85555AA82AAA558555590 = some (.swidEntry 0 0 0) ∧
    decodeTableWord 28 0x85555F0 = some (.swidExit 0) ∧
    decodeTableWord 168 0x85555AA82AAA55855558085555AA82AAA558000030 = some (.sectorErase 0 0 0 0 0 0) ∧
    decodeTableWord 112 0x85555AA82AAA5585555A08000000 = some (.byteProgram 0 0 0 0 0) := by decide

/-- A placed command is fetched and run by the very next step. -/
theorem test_fetch_swidEntry :
    (next? (step (State.reset.withFetchWord 84 0x85555AA82AAA558555590))).map (fun t => (t.dev.mode, t.epc)) =
      some (.u1 .read, [⟨.swidEntry 0 0 0, 1⟩]) := by decide

theorem test_fetch_read :
    (next? (step (State.reset.withFetchWord 28 0))).map (fun t => (t.hist, t.epc)) =
      some ([⟨.eng, .R, 0xC0000, 0xFF⟩], []) := by decide

/-! ## The device: section 2.2 of 95 -/

theorem test_v2 : Dev.writeMode mapC .read 0x0D555 0xAA = some (.u1 .read) := by decide
theorem test_v3 : Dev.writeMode mapC (.u1 .read) 0x0AAAA 0x55 = some (.u2 .read) := by decide
theorem test_v4 : Dev.writeMode mapC (.u2 .read) 0x0D555 0x90 = some (.id 1) := by decide
theorem test_v8 : Dev.writeMode mapC (.id 0) 0x0D555 0xF0 = some .read := by decide
theorem test_v9 : Dev.writeMode mapC (.id 0) 0x0D555 0xAA = some (.u1 .id) ∧
    Dev.writeMode mapC (.u2 .id) 0x0D555 0x90 = some (.id 1) := by decide
theorem test_v10 : Dev.writeMode mapC (.u2 .id) 0x0D555 0x80 = none := by decide
theorem test_v12 : Dev.writeMode mapC .e3 0x08001 0x30 = none := by decide
theorem test_v13 : Dev.writeMode mapC .e3 0x09000 0x30 = some (.ebusy 9) := by decide
theorem test_v16 : Dev.writeMode mapC (.ebusy 8) 0x0D555 0xAA = none := by decide
theorem test_v17 : Dev.writeMode mapC .p1 0x08000 0x12 = some (.pbusy 0x08000 0x12) := by decide
theorem test_v20 : Dev.writeMode mapC (.u1 .read) 0x0D555 0x55 = none := by decide
theorem test_v21 : Dev.writeMode mapC (.u2 .read) 0x0D555 0x10 = none := by decide
theorem test_v22 : Dev.writeMode mapC .read 0x08000 0x12 = none := by decide
theorem test_v23 : Dev.writeMode mapC .read 0x0D555 0xF0 = none := by decide

theorem test_v5 : (inMode (.id 1) State.reset).readAnswer 0x08000 = .draw (.id 0) := by decide
theorem test_v6 : (inMode (.id 0) State.reset).readAnswer 0x08000 = .byte 0xBF ∧
    (inMode (.id 0) State.reset).readAnswer 0x08001 = .byte 0xB5 ∧
    (inMode (.id 0) State.reset).readAnswer 0x08002 = .draw (.id 0) := by decide
theorem test_v7 : (inMode (.id 0) State.reset).readAnswer 0x09000 = .byte 0xBF ∧
    (inMode (.id 0) State.reset).readAnswer 0x09001 = .byte 0xB5 := by decide
theorem test_v14 : (inMode (.ebusy 8) State.reset).readAnswer 0x09005 = .draw (.ebusy 8) := by decide
theorem test_v19 : (inMode (.u1 .read) State.reset).readAnswer 0x08000 = .unaccepted := by decide
theorem test_v24 : (inMode .indet State.reset).readAnswer 0x08000 = .draw .indet := by decide

/-- V18: the byte programmed over an erased one. -/
theorem test_v18 : (inMode (.pbusy 0x08000 0x12) State.reset).complete.dev.array = [(0x8000, 0x12)] := by decide

/-- The table of PROG. -/
theorem test_prog : prog 0xFF 0x12 = 0x12 ∧ prog 0xFF 0xFF = 0xFF ∧ prog 0x12 0x12 = 0x12 ∧ prog 0xF0 0x0F = 0x00 ∧
    prog 0x00 0xFF = 0x00 := by decide

/-! ## The device commands, one step -/

/-- V1. -/
theorem test_readArray :
    (next? (exec (.readArray 0x08000 0)
      { at_ (.readArray 0x08000 0) 0 with dev := ⟨.read, [(0x8000, 0x12)], false⟩ })).map (fun t => (t.hist, t.epc)) =
      some ([⟨.eng, .R, 0xC8000, 0x12⟩], []) := by decide

theorem test_swidEntry_last :
    (next? (exec (.swidEntry 1 1 1) (inMode (.u2 .read) (at_ (.swidEntry 1 1 1) 2)))).map
      (fun t => (t.dev.mode, t.hist, t.epc)) = some (.id 1, [⟨.eng, .W, 0xCD555, 0x90⟩], []) := by decide

theorem test_swidRead :
    (next? (exec (.swidRead 0x08001 0) (inMode (.id 0) (at_ (.swidRead 0x08001 0) 0)))).map (fun t => t.hist) =
      some [⟨.eng, .R, 0xC8001, 0xB5⟩] := by decide

theorem test_swidExit :
    (next? (exec (.swidExit 1) (inMode (.id 0) (at_ (.swidExit 1) 0)))).map (fun t => (t.dev.mode, t.faults)) =
      some (.read, []) := by decide

/-- V23: the exit byte in READ is a violation, and the command stays where it is. -/
theorem test_swidExit_read :
    (next? (exec (.swidExit 1) (at_ (.swidExit 1) 0))).map (fun t => (t.dev.mode, t.dev.fault, t.faults, t.epc)) =
      some (.indet, true, [.protocolViolation], [⟨.swidExit 1, 0⟩]) := by decide

theorem test_sectorErase_last :
    (next? (exec (.sectorErase 1 1 1 1 1 8) (inMode .e3 (at_ (.sectorErase 1 1 1 1 1 8) 5)))).map
      (fun t => (t.dev.mode, t.hist)) = some (.ebusy 8, [⟨.eng, .W, 0xC8000, 0x30⟩]) := by decide

theorem test_byteProgram_last :
    (next? (exec (.byteProgram 1 1 1 0x08000 0x12) (inMode .p1 (at_ (.byteProgram 1 1 1 0x08000 0x12) 3)))).map
      (fun t => (t.dev.mode, t.hist)) = some (.pbusy 0x08000 0x12, [⟨.eng, .W, 0xC8000, 0x12⟩]) := by decide

theorem test_statusRead :
    (next? (exec (.statusRead 0x09005 0) (inMode (.ebusy 8) (at_ (.statusRead 0x09005 0) 0)))).map
      (fun t => (t.dev.mode, t.draws)) = some (.ebusy 8, 1) := by decide

/-- X5, P3: a read after the first unlock cycle. -/
theorem test_readArray_unlocked :
    (next? (exec (.readArray 0x08000 0) (inMode (.u1 .read) (at_ (.readArray 0x08000 0) 0)))).map
      (fun t => (t.dev.mode, t.faults)) = some (.indet, [.protocolViolation]) := by decide

/-! ## Timing arbiter: sections 2.3 to 2.5 of 95 -/

theorem test_pollBound : pollBound mapC 3 = 3 ∧ pollBound mapC 0 = 0 ∧ pollBound mapC 0xFFFF = 65535 ∧
    pollBound { mapC with pollZero := .wrap } 0 = 65536 := by decide

theorem test_poll_read :
    (next? (exec (.poll 0xC8000 0xFF 3) (at_ (.poll 0xC8000 0xFF 3) 3))).map (fun t => (t.regs.r, t.hist)) =
      some (some 0xFF, [⟨.eng, .R, 0xC8000, 0xFF⟩]) := by decide

theorem test_poll_match :
    (next? (exec (.poll 0xC8000 0xFF 3)
      { at_ (.poll 0xC8000 0xFF 3) 5 with regs := { Regs.unset with r := some 0xFE } })).map (fun t => t.stmt) =
      some 2 := by decide

/-- C4: N saturates. -/
theorem test_cal_saturates :
    (next? (exec (.cal .reg) { at_ (.cal .reg) 9 with regs := { Regs.unset with N := some 0xFFFF } })).map
      (fun t => t.regs.N) = some (some 0xFFFF) := by decide

/-- C6: MEMCFG = TEST, no bus cycle. -/
theorem test_cal_sentinel :
    (next? (exec (.cal .reg) (testState (at_ (.cal .reg) 11)))).map (fun t => (t.regs.T, t.hist)) =
      some (some 4, []) := by decide

theorem test_waitProgram :
    (next? (exec (.waitProgram 0xC8000 0x12)
      { at_ (.waitProgram 0xC8000 0x12) 0 with regs := { Regs.unset with T := some 2 } })).map (fun t => t.epc) =
      some [⟨.poll 0xC8000 0x12 2, 0⟩, ⟨.waitProgram 0xC8000 0x12, 1⟩] := by decide

theorem test_waitErase_last :
    (next? (exec (.waitErase 0xC8000)
      { at_ (.waitErase 0xC8000) 1 with regs := { Regs.unset with j := some 1163 } })).map (fun t => t.stmt) =
      some 7 := by decide

/-- X3: T unset at the first WAIT_ERASE poll. -/
theorem test_waitErase_unset :
    (next? (exec (.waitErase 0xC8000) (at_ (.waitErase 0xC8000) 2))).map (fun t => (t.faults, t.stmt)) =
      some ([.unsetRegister .T], 2) := by decide

/-! ## Command sequences -/

theorem test_csEnter : (next? (exec .csEnter (at_ .csEnter 0))).map (fun t => (t.IF, t.epc)) = some (false, []) := by
  decide

theorem test_csExit :
    (next? (exec .csExit { at_ .csExit 0 with IF := false })).map (fun t => (t.IF, t.epc)) = some (true, []) := by
  decide

/-- X2: MAP_C, S = 0xE000. -/
theorem test_detect_outside :
    (next? (exec (.detect (.imm 0xE000) .reg) (at_ (.detect (.imm 0xE000) .reg) 1))).map
      (fun t => (t.faults, t.hist)) = some ([.commandOutsideDevice 0xE5555], []) := by decide

/-- X6: S unset. -/
theorem test_detect_unset :
    (next? (exec (.detect .reg .reg) (at_ (.detect .reg .reg) 1))).map (fun t => (t.faults, t.hist)) =
      some ([.unsetRegister .S], []) := by decide

/-- Section 2.7 of 95. -/
theorem test_identifies : identifies .SST39SF512 0xBF 0xB4 ∧ identifies .SST39SF010 0xBF 0xB5 ∧
    identifies .SST39SF020 0xBF 0xB6 ∧ identifies .SST39SF040 0xBF 0xB7 ∧ ¬ identifies .SST39SF010 0x00 0xB5 := by decide

theorem test_idDecode_none :
    (next? (execN (.idDecode (.imm 0xBF) (.imm 0xB8)) 5 (at_ (.idDecode (.imm 0xBF) (.imm 0xB8)) 0))).map
      (fun t => (t.regs.PARTF, t.epc)) = some (some .none, []) := by decide

/-- X4: ERASE_SECTOR with IF = 1. -/
theorem test_eraseSector_unmasked :
    (next? (exec (.eraseSector (.imm 0xC800) 0xC8000) (at_ (.eraseSector (.imm 0xC800) 0xC8000) 0))).map
      (fun t => (t.faults, t.dev.mode, t.hist)) = some ([.criticalSectionViolation], .read, []) := by decide

theorem test_eraseSector_confirm :
    (next? (exec (.eraseSector (.imm 0xC800) 0xC8000) (inMode .e3 (at_ (.eraseSector (.imm 0xC800) 0xC8000) 5)))).map
      (fun t => (t.dev.mode, t.stmt)) = some (.ebusy 8, 6) := by decide

theorem test_programByte_data :
    (next? (exec (.programByte (.imm 0xC800) 0xC8000 0x12)
      (inMode .p1 (at_ (.programByte (.imm 0xC800) 0xC8000 0x12) 3)))).map (fun t => (t.dev.mode, t.stmt)) =
      some (.pbusy 0x08000 0x12, 4) := by decide

theorem test_programByte_unmasked :
    (next? (exec (.programByte (.imm 0xC800) 0xC8000 0x12) (at_ (.programByte (.imm 0xC800) 0xC8000 0x12) 0))).map
      (fun t => t.faults) = some [.criticalSectionViolation] := by decide

/-! ## Planner: section 2.6 of 95 -/

/-- PLAN's result for D and L. -/
def planOf (D L : Nat) : Option Seg :=
  (next? (execN (.plan (.imm (BitVec.ofNat 16 D)) (.imm L)) (if planRoundsUp (D * 16) (planFloor (D * 16)) L then 5 else 4)
    (at_ (.plan (.imm (BitVec.ofNat 16 D)) (.imm L)) 0))).bind fun t => t.regs.S

theorem test_plan : planOf 0xC800 0x8000 = some 0xC800 ∧ planOf 0xC800 0x10000 = some 0xC800 ∧
    planOf 0xC900 0x10000 = some 0xD000 ∧ planOf 0xC900 0xF000 = some 0xD000 ∧ planOf 0xC900 0xE000 = some 0xC800 ∧
    planOf 0xCC00 0xC000 = some 0xD000 ∧ planOf 0xF100 0xF000 = some 0xF800 ∧ planOf 0xF800 0x1000 = some 0xF800 := by
  decide

/-- The segments of the window at S outside the destination: the last columns of the table. -/
def probedOf (S D : Seg) (L : Nat) : Nat :=
  ((List.range 16).filter fun k => !inDestination D L (S.toNat + 0x80 * k)).length

theorem test_overlap_probes : probedOf 0xC800 0xC800 0x8000 = 0 ∧ probedOf 0xC800 0xC800 0x2000 = 12 ∧
    probedOf 0xC800 0xC900 0x1000 = 14 ∧ probedOf 0xC800 0xCC00 0x4000 = 8 ∧ probedOf 0xF800 0xF800 0x1000 = 14 := by
  decide

theorem test_romSignature : romSignature 0x55 0xAA ∧ romSignature 0x00 0xFF ∧ romSignature 0x55 0x00 ∧
    ¬ romSignature 0xAA 0x55 := by decide

/-! ## Workflow and top level: section 2.8 of 95 -/

theorem test_compareBlock_differs :
    (next? (exec (.compareBlock 0)
      { at_ (.compareBlock 0) 2 with regs := { Regs.unset with b := some 5 }, img := [List.replicate 8 0x00] })).map
      (fun t => (t.stmt, t.hist)) = some (4, [⟨.eng, .R, 0xC8005, 0xFF⟩]) := by decide

/-- X1: block 8 of D = 0xF800 begins at 1 MiB. -/
theorem test_compareBlock_window :
    (next? (exec (.compareBlock 8)
      { at_ (.compareBlock 8) 2 with D := 0xF800, regs := { Regs.unset with b := some 0 },
                                     img := List.replicate 9 [0x00] })).map (fun t => (t.faults, t.hist)) =
      some ([.addressOutOfWindow 0x100000], []) := by decide

theorem test_flash_program :
    (next? (exec .flash
      { at_ .flash 14 with regs := { Regs.unset with i := some 0, b := some 2 }, img := [[1, 2, 3]] })).map
      (fun t => t.epc) = some [⟨.programByte .reg 0xC8002 3, 0⟩, ⟨.flash, 15⟩] := by decide

theorem test_verify_differs :
    (next? (exec .verify
      { at_ .verify 4 with regs := { Regs.unset with i := some 0, b := some 1 }, img := [[1, 2, 3]] })).map
      (fun t => (t.stmt, t.hist)) = some (6, [⟨.eng, .R, 0xC8001, 0xFF⟩]) := by decide

/-- R2, R3, R4. -/
theorem test_isYes : isYes 0x59 ∧ isYes 0x79 ∧ ¬ isYes 0x6E ∧ ¬ isYes 0x0D := by decide

theorem test_run_key :
    (next? (exec .run { at_ .run 13 with keys := [0x6E, 0x79] })).map (fun t => (t.regs.ANS, t.keys, t.stmt)) =
      some (some 0x6E, [0x79], 14) := by decide

theorem test_run_prompt :
    (next? (exec .run { at_ .run 11 with regs := { Regs.unset with PARTF := some (.known .SST39SF020) } })).map
      (fun t => t.msg) = some [.summary (.known .SST39SF020) 0xC800 4096] := by decide

theorem test_halt : (next? (exec .halt (at_ .halt 0))).map (fun t => (t.halted, t.epc)) =
    some (true, [⟨.halt, 0⟩]) := by decide

/-! ## Launch -/

/-- An empty file is rejected, and one of 3 bytes (R212). -/
theorem test_load_rejects : load [] none = .error .imageRejected ∧ load [1, 2, 3] none = .error .imageRejected := by
  constructor <;> rfl

/-- The boot order (R293): the front end's error comes before the loader's. -/
theorem test_boot : boot mapC [] 0 0xC880 none [] = .error .invalidArguments ∧
    boot mapC [] 0 0xC800 none [] = .error .imageRejected := by constructor <;> rfl

/-- Under MEMCFG = TEST the array at launch is 0xAA whatever array is passed (R46, R70). -/
theorem test_launch_test :
    let s := State.launch (testState State.reset).cfg [(3, 7)] 0xC800 [] 0 0
    s.dev.array = [] ∧ s.arrayByte 3 = 0xAA := by decide

/-- The array persists, and nothing else (R295). -/
theorem test_nextRun :
    let last := { State.reset with dev := ⟨.read, [(3, 7)], false⟩, IF := false, halted := true }
    let s := last.nextRun 0xC900 [] 0 5
    s.arrayByte 3 = 7 ∧ s.arrayByte 4 = 0xFF ∧ s.D = 0xC900 ∧ s.IF = true ∧ s.halted = false ∧ s.tick = 5 := by decide

theorem witness_LaunchState :
    let last := inMode (.ebusy 8) State.reset
    last.cfg.memcfg = .real ∧ last.dev.mode = .ebusy 8 ∧ DevAddr.sector 0x07FFF ≠ 8 ∧ DevAddr.sector 0x09000 ≠ 8 ∧
      (testState State.reset).cfg.memcfg = .test := by decide

/-- A faulted state is no terminal outcome (R228, R263). -/
theorem test_faulted_not_final (e : RunEnd) : ¬ e.holds (State.reset.raise .protocolViolation) := fun h => by cases h.1

/-- The codes of R260 and R261. -/
theorem test_codes : ErrCause.verifyFailed.code = 7 ∧ FaultKind.protocolViolation.code = 16 ∧
    FaultKind.criticalSectionViolation.code = 20 := by decide

/-! ## Addresses of MAP_C -/

/-- Under MAP_C every address from 0xC0000 to 0xDFFFF reaches the device. -/
theorem reaches_mapC {s : State} (hc : s.cfg.devMap = mapC.devMap) {p : Nat} (h1 : 0xC0000 ≤ p) (h2 : p < 0xE0000) :
    ∃ a, s.reaches p a := by
  have hp : toPhys? p = some (BitVec.ofNat 20 p) := toPhys?_of_lt (by simp only [PHYS_SIZE]; omega)
  have hn : (BitVec.ofNat 20 p).toNat = p := by rw [BitVec.toNat_ofNat]; omega
  have ha : ∃ a, s.cfg.devAddr? (BitVec.ofNat 20 p) = some a := by
    simp only [Config.devAddr?, Config.sectorOf?, hc, hn, mapC, List.find?_cons]
    rw [show (decide (192 ≤ p / 4096) && decide (p / 4096 < 192 + 32)) = true by simp; omega]
    exact ⟨_, rfl⟩
  obtain ⟨a, ha⟩ := ha
  exact ⟨a, _, hp, ha⟩

/-- With nothing listed in the array, each of them shows the blank byte. -/
theorem shows_blank {s : State} (hc : s.cfg.devMap = mapC.devMap) (hm : s.dev.mode = .read) (ha : s.dev.array = [])
    {p : Nat} (h1 : 0xC0000 ≤ p) (h2 : p < 0xE0000) : s.shows p (blankByte s.cfg.memcfg) := by
  obtain ⟨a, q, hq, hd⟩ := reaches_mapC hc h1 h2
  refine ⟨q, hq, ?_⟩
  rw [hd]
  exact ⟨hm, by simp [State.arrayByte, ha]⟩

theorem readable_mapC {s : State} (hc : s.cfg.devMap = mapC.devMap) (hm : s.dev.mode = .read) {p : Nat}
    (h1 : 0xC0000 ≤ p) (h2 : p < 0xE0000) : s.readable p := by
  obtain ⟨a, q, hq, -⟩ := reaches_mapC hc h1 h2
  exact ⟨q, hq, fun a _ => by simp [State.readAnswer, hm]⟩

/-- The window at 0xC800 and the sector at 0xC800 (P1 of 95). -/
theorem window_mapC {s : State} (hc : s.cfg = mapC) : s.window 0xC800 :=
  ⟨⟨0x0D555, ⟨0xCD555, by decide, by rw [hc]; decide⟩, by decide⟩,
    ⟨0x0AAAA, ⟨0xCAAAA, by decide, by rw [hc]; decide⟩, by decide⟩⟩

theorem idSector_mapC {s : State} (hc : s.cfg = mapC) : s.idSector 0xC800 :=
  ⟨⟨0x08000, ⟨0xC8000, by decide, by rw [hc]; decide⟩, by decide⟩,
    ⟨0x08001, ⟨0xC8001, by decide, by rw [hc]; decide⟩, by decide⟩⟩

theorem segC800 : (0xC800 : Seg).toNat = 0xC800 := rfl

/-- A byte of an image of one block of equal bytes. -/
theorem imgByte_replicate {s : State} {n b : Nat} {x : Byte} (hi : s.img = [List.replicate n x]) (hb : b < n) :
    s.imgByte? 0 b = some x := by
  simp [State.imgByte?, hi, hb]

/-- The image of one block of the blank byte is what memory holds. -/
theorem blockEqual_blank {s : State} (hc : s.cfg.devMap = mapC.devMap) (hm : s.dev.mode = .read)
    (ha : s.dev.array = []) (hD : s.D = 0xC800) (hi : s.img = [List.replicate 4096 (blankByte s.cfg.memcfg)]) :
    s.blockEqual 0 := by
  intro b hb
  have hb' : b < 4096 := hb
  refine ⟨_, shows_blank hc hm ha ?_ ?_, ?_⟩
  · simp only [State.pbase, physical, hD, segC800]; omega
  · simp only [State.pbase, physical, hD, segC800]; omega
  · exact imgByte_replicate hi hb'

/-- A place that shows a byte can be read. -/
theorem readable_of_shows {s : State} {p : Nat} {v : Byte} (h : s.shows p v) : s.readable p := by
  obtain ⟨q, hq, h⟩ := h
  refine ⟨q, hq, fun a ha => ?_⟩
  rw [ha] at h
  simp [State.readAnswer, h.1]

theorem blockReadable_of_equal {s : State} {i : Nat} (h : s.blockEqual i) : s.blockReadable i := fun b hb =>
  let ⟨v, h1, h2⟩ := h b hb
  ⟨readable_of_shows h1, v, h2⟩

/-- Below 0xC0000 MAP_C reaches no device: OTHER_MEM or the tick answers (R64). -/
theorem readable_other {s : State} (hc : s.cfg.devMap = mapC.devMap) {p : Nat} (h : p < 0xC0000) : s.readable p := by
  refine ⟨_, toPhys?_of_lt (by simp only [PHYS_SIZE]; omega), fun a ha => ?_⟩
  have hn : (BitVec.ofNat 20 p).toNat = p := by rw [BitVec.toNat_ofNat]; omega
  simp only [Config.devAddr?, Config.sectorOf?, hc, hn, mapC, List.find?_cons, List.find?_nil] at ha
  rw [show (decide (192 ≤ p / 4096) && decide (p / 4096 < 192 + 32)) = false by simp; omega] at ha
  cases ha

/-! ## A state that meets the hypotheses of each statement -/

theorem witness_DecodeOfEncode : (Instr.sectorErase 1 3 1 1 1 8).acceptedIn .read = true ∧
    (Instr.swidRead 0x08001 0xB5).acceptedIn (.id 1) = true ∧
    (Instr.statusRead 0x08001 0xB5).acceptedIn (.pbusy 0 0) = true := by decide

theorem witness_EncodeOfDecode :
    decode (.id 0) [⟨false, 0x08001, 0xB5⟩, ⟨true, 0x0D555, 0xF0⟩] =
      .ok (.swidRead 0x08001 0xB5, [⟨true, 0x0D555, 0xF0⟩]) := by decide

/-- The state after reset with the next move given. -/
def moving (m : Move) (s : State) : State := { s with sched := [m] }

theorem witness_StepExecutesTopFrame : (moving .eng State.reset).live ∧ (moving .eng State.reset).nextMove = .eng ∧
    (moving .eng State.reset).epc = ⟨.run, 0⟩ :: [] := ⟨⟨rfl, rfl, rfl⟩, rfl, rfl⟩

theorem witness_StepFetchesCommand :
    let s := State.reset.withFetchWord 28 0x85555F0
    s.live ∧ s.nextMove = .eng ∧ s.epc = [] ∧ decodeWords s.dev.mode s.queue = .ok (.swidExit 0, []) ∧
      (Instr.swidExit 0).wf s.cfg.part = true := ⟨⟨rfl, rfl, rfl⟩, rfl, rfl, by decide, by decide⟩

theorem witness_RecordedFaultStopsEveryAgent :
    (State.reset.raise .criticalSectionViolation).faults = .criticalSectionViolation :: [] := by decide

theorem witness_EveryStatementAnswers :
    let s := { at_ .verify 4 with regs := { Regs.unset with i := some 0, b := some 1 }, img := [[1, 2, 3]] }
    s.stmt < Instr.length .verify ∧
      (∀ c, (Instr.cycles .verify)[s.stmt]? = some c → s.cfg.hostAddr? c.a ≠ none) ∧
      (∀ k b, s.regs.b = some b →
        ((Instr.verify = .compareBlock k ∧ s.stmt = 2) ∨
          (s.regs.i = some k ∧ ((Instr.verify = .flash ∧ s.stmt = 14) ∨ (Instr.verify = .verify ∧ s.stmt = 4)))) →
        s.imgByte? k b ≠ none) := by
  refine ⟨by decide, fun c hc => by simp [Instr.cycles] at hc, ?_⟩
  intro k b hb hk
  obtain rfl : 1 = b := Option.some.inj hb
  rcases hk with ⟨hk, -⟩ | ⟨hk, -⟩
  · cases hk
  · obtain rfl : 0 = k := Option.some.inj hk
    decide

/-- The end of FLASH's byte loop, where b is no byte of the block. -/
theorem witness_EveryStatementAnswers_loopEnd :
    let s := { at_ .flash 13 with regs := { Regs.unset with i := some 0, b := some 4096 } }
    s.stmt < Instr.length .flash ∧ (∀ c, (Instr.cycles .flash)[s.stmt]? = some c → s.cfg.hostAddr? c.a ≠ none) ∧
      (∀ k b, s.regs.b = some b →
        ((Instr.flash = .compareBlock k ∧ s.stmt = 2) ∨
          (s.regs.i = some k ∧ ((Instr.flash = .flash ∧ s.stmt = 14) ∨ (Instr.flash = .verify ∧ s.stmt = 4)))) →
        s.imgByte? k b ≠ none) := by
  refine ⟨by decide, fun c hc => by simp [Instr.cycles] at hc, fun k b _ hk => ?_⟩
  rcases hk with ⟨hk, -⟩ | ⟨-, ⟨-, hk⟩ | ⟨hk, -⟩⟩
  · cases hk
  · exact absurd hk (by decide)
  · cases hk

theorem witness_EveryStatementAnswers_command :
    let i := Instr.swidExit 1
    let s := at_ i 0
    s.stmt < i.length ∧ (∀ c, i.cycles[s.stmt]? = some c → s.cfg.hostAddr? c.a ≠ none) ∧
      (∀ k b, s.regs.b = some b →
        ((i = .compareBlock k ∧ s.stmt = 2) ∨
          (s.regs.i = some k ∧ ((i = .flash ∧ s.stmt = 14) ∨ (i = .verify ∧ s.stmt = 4)))) →
        s.imgByte? k b ≠ none) := by
  refine ⟨by decide, fun c hc => ?_, fun k b hb => by cases hb⟩
  have hc : Dcw.command 1 CMD_ADDR1 0xF0 = c := Option.some.inj hc
  subst hc
  decide

/-- A file of at most one block is accepted if its length is a multiple of 2 KiB (R212). -/
theorem load_short {file : List Byte} (h1 : 0 < file.length) (h2 : file.length % 2048 = 0) (h3 : file.length ≤ SECTOR) :
    ∃ l, load file none = .ok l := by
  have h : file.take (loadLimit none) = file :=
    List.take_of_length_le (by simp only [loadLimit, MAX_BLOCKS, SECTOR] at *; omega)
  have hb : (loadBlocks MAX_BLOCKS file).length ≤ MAX_BLOCKS := by
    cases file with
    | nil => decide
    | cons v vs =>
      rw [loadBlocks.eq_def]
      simp only [List.drop_of_length_le h3, List.length_cons]
      decide
  exact ⟨_, if_pos (by rw [h]; exact ⟨h1, h2, hb⟩)⟩

theorem witness_LoadMeetsImageContract : legalK (some 2) = true ∧ legalK none = true ∧
    (∃ l, load (List.replicate 2048 0x12) none = .ok l) ∧ load [] (some 2) = .error .imageRejected := by
  refine ⟨by decide, by decide, load_short ?_ ?_ ?_, rfl⟩ <;> rw [List.length_replicate] <;> decide

/-- A step of the device that completes an erase: the hypotheses of the invariants' statements. -/
def erasing : State := moving .dev (inMode (.ebusy 8) State.reset)

theorem witness_StepKeepsMemoryInvariant : MemInv erasing ∧ step erasing = .next (erasing.moveTaken.complete) :=
  ⟨⟨by decide, by decide, by decide, (by decide : 8 < 32)⟩, rfl⟩

theorem witness_StepKeepsFaultInvariant : FaultInv erasing ∧ step erasing = .next (erasing.moveTaken.complete) :=
  ⟨⟨by decide, by decide, by decide⟩, rfl⟩

/-- A step of CS_ENTER inside DETECT, called by RUN. -/
def entering : State :=
  moving .eng { State.reset with epc := [⟨.csEnter, 0⟩, ⟨.detect .reg .reg, 1⟩, ⟨.run, 4⟩] }

theorem witness_StepKeepsCallStack : StackInv entering ∧ ∃ t, step entering = .next t :=
  ⟨⟨by decide, by decide⟩, _, rfl⟩

theorem witness_StepKeepsCriticalSection : CriticalInv entering ∧ (∃ t, step entering = .next t) ∧
    entering.cfg.memcfg = .real := ⟨fun _ => ⟨rfl, rfl⟩, ⟨_, rfl⟩, rfl⟩

/-- Under MEMCFG = TEST: DETECT's first unlock write, which reaches the device. -/
def unlocking : State :=
  testState (moving .eng { State.reset with epc := [⟨.detect (.imm 0xC800) .reg, 1⟩, ⟨.run, 4⟩], IF := false })

theorem witness_StepKeepsCriticalSection_test : CriticalInv unlocking ∧
    ∃ t, step unlocking = .next t ∧ WritesReachDevice unlocking t := by
  refine ⟨fun _ => ⟨rfl, rfl⟩, _, rfl, fun e he _ => ?_⟩
  obtain rfl : ⟨.eng, .W, 0xCD555, 0xAA⟩ = e :=
    (List.cons.inj (List.append_cancel_left he)).1
  decide

/-- Log 35: under MEMCFG = TEST a sector erase's sixth cycle at an address of the RAM leaves the device in E3. -/
theorem test_erase_misses_device :
    let s := testState (inMode .e3 { at_ (.eraseSector (.imm 0xC800) 0x12000) 5 with IF := false })
    (next? (exec (.eraseSector (.imm 0xC800) 0x12000) s)).map (fun t => (t.dev.mode, t.faults, t.ram)) =
      some (.e3, [], [(0x12000, 0x30)]) := by decide

theorem witness_IsrOnlyReads : State.reset.faults = [] ∧ State.reset.IF = true ∧ CriticalInv State.reset ∧
    (State.reset.setIF false).faults = [] ∧ (State.reset.setIF false).IF = false :=
  ⟨rfl, rfl, fun _ => ⟨rfl, rfl⟩, rfl, rfl⟩

theorem witness_IsrOnlyReads_noDevice :
    let s := { testState State.reset with cfg := { mapC with memcfg := .test, devMap := [] } }
    s.faults = [] ∧ s.IF = true ∧ s.cfg.devMap = [] := ⟨rfl, rfl, rfl⟩

/-- A step, for the statements about every step; and a device that is busy. -/
theorem witness_step : (∃ t, step entering = .next t) ∧ ∃ t, step erasing = .next t := ⟨⟨_, rfl⟩, _, rfl⟩

/-- Statements of instructions, for the statements about every instruction: one of each shape that the frames
distinguish (a register, an output, IF, a read, a write). -/
theorem witness_exec :
    (∃ t, exec (.plan .reg .reg) (at_ (.plan .reg .reg) 0) = .next t) ∧ (∃ t, exec .run (at_ .run 12) = .next t) ∧
      (∃ t, exec .csExit (at_ .csExit 0) = .next t) ∧
      (∃ t, exec (.waitProgram 0xC8000 0) (at_ (.waitProgram 0xC8000 0) 0) = .next t) ∧
      (storedAt (.swidExit 1) (at_ (.swidExit 1) 0) = some 0xCD555 ∧
        (next? (exec (.swidExit 1) (at_ (.swidExit 1) 0))).isSome) ∧
      (storedAt (.readArray 0x08000 0) (at_ (.readArray 0x08000 0) 0) = none ∧
        (next? (exec (.readArray 0x08000 0) (at_ (.readArray 0x08000 0) 0))).isSome) :=
  ⟨⟨_, rfl⟩, ⟨_, rfl⟩, ⟨_, rfl⟩, ⟨_, rfl⟩, by decide, by decide⟩

/-- A store to the RAM of MEMCFG = TEST, at the address that `storedAt` computes. -/
theorem witness_StoresOnlyAtStoredAddress :
    let i := Instr.programByte (.imm 0xC800) 0x12345 7
    let s := testState (at_ i 3)
    storedAt i s = some 0x12345 ∧ (next? (exec i s)).map (fun t => t.ram) = some [(0x12345, 7)] := by decide

/-- A violation in READ mode, and an accepted exit from ID. -/
theorem witness_DeviceCommandFrame :
    let s := at_ (.swidExit 1) 0
    (Instr.swidExit 1).isCommand = true ∧ (next? (exec (.swidExit 1) s)).isSome ∧
      (next? (exec (.swidExit 1) (inMode (.id 0) s))).isSome ∧
      Dev.writeMode s.cfg .read (DevAddr.ofCommand 1 0x5555) 0xF0 = none ∧
      Dev.writeMode s.cfg (.id 0) (DevAddr.ofCommand 1 0x5555) 0xF0 = some .read := by decide

theorem witness_UnacceptedCycleFaults : toPhys? 0xC8000 = some 0xC8000 ∧ mapC.devAddr? 0xC8000 = some 0x08000 ∧
    Dev.writeMode mapC (.u1 .read) 0x08000 0x12 = none ∧
    (inMode (.u1 .read) State.reset).readAnswer 0x08000 = .unaccepted ∧ (inMode .indet State.reset).dev.mode = .indet := by
  decide

theorem witness_EraseCompletes : (inMode (.ebusy 31) State.reset).dev.mode = .ebusy 31 := rfl

theorem witness_ProgramCompletes : (inMode (.pbusy 0x1FFFF 0) State.reset).dev.mode = .pbusy 0x1FFFF 0 := rfl

theorem witness_AlignedSegmentsReachCommandOffsets : State.reset.cfg.wf = true ∧
    (0xC800 : Seg).toNat % 0x800 = 0 ∧ (∃ a, State.reset.reaches (unlock1 0xC800) a) ∧
    (∃ a, State.reset.reaches (unlock2 0xC800) a) ∧ legalD 0xDF00 = true ∧
    ∃ a, State.reset.reaches (physical 0xDF00 0) a :=
  ⟨by decide, by decide, reaches_mapC rfl (by decide) (by decide), reaches_mapC rfl (by decide) (by decide), by decide,
    reaches_mapC rfl (by decide) (by decide)⟩

theorem witness_ReadArrayReturnsByte :
    let s := at_ (.readArray 0x1FFFF 0) 0
    s.epc = ⟨.readArray 0x1FFFF 0, 0⟩ :: [] ∧ s.cfg.hostAddr? 0x1FFFF = some 0xDFFFF ∧ s.dev.mode = .read := by decide

theorem witness_SwidReadReturnsIdBytes :
    let s := inMode (.id 1) (at_ (.swidRead 0x08001 0) 0)
    s.epc = ⟨.swidRead 0x08001 0, 0⟩ :: [] ∧ s.cfg.hostAddr? 0x08001 = some 0xC8001 ∧ s.dev.mode = .id 1 := by decide

theorem witness_StatusReadReturnsDraw :
    let s := inMode (.pbusy 0x08000 0x12) (at_ (.statusRead 0x09005 0) 0)
    s.epc = ⟨.statusRead 0x09005 0, 0⟩ :: [] ∧ s.cfg.hostAddr? 0x09005 = some 0xC9005 ∧ s.busy = true := by decide

theorem witness_SwidEntryEntersId :
    let s := at_ (.swidEntry 1 3 0) 0
    s.epc = ⟨.swidEntry 1 3 0, 0⟩ :: [] ∧ s.cfg.hostAddr? (DevAddr.ofCommand 1 0x5555) = some 0xCD555 ∧
      s.cfg.hostAddr? (DevAddr.ofCommand 3 0x2AAA) = some 0xDAAAA ∧
      s.cfg.hostAddr? (DevAddr.ofCommand 0 0x5555) = some 0xC5555 ∧ s.dev.mode = .read ∧
      (inMode (.id 0) s).dev.mode = .id 0 := by decide

theorem witness_SwidExitReturnsToRead :
    let s := at_ (.swidExit 3) 0
    s.epc = ⟨.swidExit 3, 0⟩ :: [] ∧ s.cfg.hostAddr? (DevAddr.ofCommand 3 0x5555) = some 0xDD555 ∧
      s.dev.mode = .read ∧ s.faults = [] ∧ (inMode (.id 0) s).dev.mode = .id 0 := by decide

theorem witness_SectorEraseStartsErase :
    let s := at_ (.sectorErase 1 1 1 1 1 31) 0
    s.epc = ⟨.sectorErase 1 1 1 1 1 31, 0⟩ :: [] ∧ s.cfg.hostAddr? (DevAddr.ofCommand 1 0x5555) = some 0xCD555 ∧
      s.cfg.hostAddr? (DevAddr.ofCommand 1 0x2AAA) = some 0xCAAAA ∧
      s.cfg.hostAddr? (DevAddr.ofSector 31 0) = some 0xDF000 ∧ s.dev.mode = .read := by decide

theorem witness_ByteProgramStartsProgram :
    let s := at_ (.byteProgram 1 1 1 0x1FFFF 0) 0
    s.epc = ⟨.byteProgram 1 1 1 0x1FFFF 0, 0⟩ :: [] ∧ s.cfg.hostAddr? (DevAddr.ofCommand 1 0x5555) = some 0xCD555 ∧
      s.cfg.hostAddr? (DevAddr.ofCommand 1 0x2AAA) = some 0xCAAAA ∧ s.cfg.hostAddr? 0x1FFFF = some 0xDFFFF ∧
      s.dev.mode = .read := by decide

theorem witness_PollIsBounded :
    (at_ (.poll 0xDFFFF 0xFF 0) 0).epc = ⟨.poll 0xDFFFF 0xFF 0, 0⟩ :: [] ∧
      (at_ (.poll 0xDFFFF 0xFF 0) 0).readable 0xDFFFF := ⟨rfl, readable_mapC rfl rfl (by decide) (by decide)⟩

theorem witness_CalSetsT :
    let s := at_ (.cal .reg) 0
    s.epc = ⟨.cal .reg, 0⟩ :: [] ∧ s.cfg.memcfg = .real ∧ s.live ∧ s.cfg.wf = true ∧
      operand? .reg (some s.D) = some 0xC800 ∧ s.readable (physical 0xC800 0) ∧ (testState s).cfg.memcfg = .test :=
  ⟨rfl, rfl, ⟨rfl, rfl, rfl⟩, by decide, rfl, readable_mapC rfl rfl (by decide) (by decide), rfl⟩

/-- CAL's busy wait, with the tick standing and advanced. -/
theorem witness_CalSetsT_wait :
    let s := { at_ (.cal .reg) 4 with regs := { Regs.unset with t0 := some 0 } }
    s.epc = ⟨.cal .reg, 4⟩ :: [] ∧ s.cfg.memcfg = .real ∧ s.live ∧ s.cfg.wf = true ∧ s.regs.t0 = some 0 ∧
      s.tick = 0 ∧ s.tickStep.tick ≠ 0 := ⟨rfl, rfl, ⟨rfl, rfl, rfl⟩, by decide, rfl, rfl, by decide⟩

theorem witness_CalCountsRounds :
    let s := { at_ (.cal .reg) 7 with
      regs := { Regs.unset with calP := some 0xC8000, probe := some 0xED, t1 := some 0, N := some 0xFFFF } }
    s.epc = ⟨.cal .reg, 7⟩ :: [] ∧ s.live ∧ s.cfg.devAddr? s.cfg.tickAddr = none ∧ s.readable 0xC8000 ∧
      s.tick = 0 ∧ (s.tickStep).tick ≠ 0 :=
  ⟨rfl, ⟨rfl, rfl, rfl⟩, by decide, readable_mapC rfl rfl (by decide) (by decide), rfl, by decide⟩

/-- T = 0 is a value that CAL can give (R162). -/
theorem witness_WaitProgramIsOneUnit :
    let s := { at_ (.waitProgram 0xC8000 0x12) 0 with regs := { Regs.unset with T := some 0 } }
    s.epc = ⟨.waitProgram 0xC8000 0x12, 0⟩ :: [] ∧ s.live ∧ s.regs.T = some 0 ∧ s.readable 0xC8000 :=
  ⟨rfl, ⟨rfl, rfl, rfl⟩, rfl, readable_mapC rfl rfl (by decide) (by decide)⟩

theorem witness_WaitEraseIsBounded :
    let s := { at_ (.waitErase 0xC8000) 0 with regs := { Regs.unset with T := some 0xFFFF } }
    s.epc = ⟨.waitErase 0xC8000, 0⟩ :: [] ∧ s.live ∧ s.regs.T = some 0xFFFF ∧ s.readable 0xC8000 :=
  ⟨rfl, ⟨rfl, rfl, rfl⟩, rfl, readable_mapC rfl rfl (by decide) (by decide)⟩

/-- BUSY_NO_FALSE_MATCH constrains a free value, so the witness takes the byte to differ from what the poll waits for
where the draw allows it: the program of a byte made from the draw, over a byte that is erased. -/
theorem witness_BusyPollDoesNotMatch :
    let v := Config.draw 0 &&& 0x0F ^^^ 0x01
    let s := moving .eng
      (inMode (.pbusy 0x08000 v) { at_ (.poll 0xC8000 v 3) 3 with regs := { Regs.unset with n := some 0 } })
    s.live ∧ s.nextMove = .eng ∧ s.epc = ⟨.poll 0xC8000 v 3, 3⟩ :: [] ∧ s.reaches 0xC8000 0x08000 ∧
      s.regs.n = some 0 ∧ s.awaited = some v ∧ ∃ t, step s = .next t ∧ BusyNoFalseMatch s t := by
  refine ⟨⟨rfl, rfl, rfl⟩, rfl, rfl, ⟨0xC8000, by decide, by decide⟩, rfl, rfl, _, rfl, fun e v he _ _ hv => ?_⟩
  obtain rfl : ⟨.eng, .R, 0xC8000, Config.draw 0⟩ = e :=
    (List.cons.inj (List.append_cancel_left he)).1
  obtain rfl : Config.draw 0 &&& 0x0F ^^^ 0x01 = v := Option.some.inj hv
  show Config.draw 0 ≠ Config.draw 0 &&& 0x0F ^^^ 0x01
  generalize Config.draw 0 = d
  revert d
  decide

theorem witness_CriticalSectionOpsWriteIF : (at_ .csEnter 0).epc = ⟨.csEnter, 0⟩ :: [] ∧
    (at_ .csExit 0).epc = ⟨.csExit, 0⟩ :: [] := ⟨rfl, rfl⟩

theorem witness_DetectReadsIdBytes :
    let s := at_ (.detect (.imm 0xC800) .reg) 0
    s.epc = ⟨.detect (.imm 0xC800) .reg, 0⟩ :: [] ∧ s.live ∧ operand? (.imm 0xC800) s.regs.S = some 0xC800 ∧
      operand? .reg (some s.D) = some 0xC800 ∧ s.window 0xC800 ∧ s.idSector 0xC800 ∧ s.dev.mode = .read ∧
      (inMode (.id 1) s).dev.mode = .id 1 ∧ s.cfg.idStale < s.cfg.idReads :=
  ⟨rfl, ⟨rfl, rfl, rfl⟩, rfl, rfl, window_mapC rfl, idSector_mapC rfl, rfl, rfl, by decide⟩

theorem witness_IdDecodeSelectsPart :
    let s := { at_ (.idDecode .reg .reg) 0 with regs := { Regs.unset with VID := some 0xBF } }
    s.epc = ⟨.idDecode .reg .reg, 0⟩ :: [] ∧ operand? .reg s.regs.VID = some 0xBF ∧
      operand? (.imm 0xB6) s.regs.DID = some 0xB6 ∧ operand? .reg s.regs.DID = none ∧
      operand? .reg (at_ (.idDecode .reg .reg) 0).regs.VID = (none : Option Byte) := by decide

theorem witness_EraseSectorErases :
    let s := { at_ (.eraseSector .reg 0xC8000) 0 with
      IF := false, regs := { Regs.unset with S := some 0xC800, T := some 4 } }
    s.epc = ⟨.eraseSector .reg 0xC8000, 0⟩ :: [] ∧ s.IF = false ∧ s.dev.mode = .read ∧
      operand? .reg s.regs.S = some 0xC800 ∧ s.window 0xC800 ∧ s.reaches 0xC8000 0x08000 ∧
      DevAddr.boff 0x08000 = 0 ∧ s.live ∧ s.regs.T = some 4 ∧ 0 < pollBound s.cfg 4 :=
  ⟨rfl, rfl, rfl, rfl, window_mapC rfl, ⟨0xC8000, by decide, by decide⟩, by decide, ⟨rfl, rfl, rfl⟩, rfl, by decide⟩

/-- After a FALSE return of the wait. -/
theorem witness_EraseSectorErases_return :
    (at_ (.eraseSector .reg 0xC8000) 7).epc = ⟨.eraseSector .reg 0xC8000, 7⟩ :: [] ∧
      (at_ (.programByte .reg 0xC8FFF 0x12) 5).epc = ⟨.programByte .reg 0xC8FFF 0x12, 5⟩ :: [] := ⟨rfl, rfl⟩

theorem witness_ProgramBytePrograms :
    let s := { at_ (.programByte .reg 0xC8FFF 0x12) 0 with
      IF := false, regs := { Regs.unset with S := some 0xC800, T := some 4 } }
    s.epc = ⟨.programByte .reg 0xC8FFF 0x12, 0⟩ :: [] ∧ s.IF = false ∧ s.dev.mode = .read ∧
      operand? .reg s.regs.S = some 0xC800 ∧ s.window 0xC800 ∧ s.reaches 0xC8FFF 0x08FFF ∧ s.live ∧
      s.regs.T = some 4 ∧ 0 < pollBound s.cfg 4 ∧ prog (s.arrayByte 0x08FFF) 0x12 = 0x12 :=
  ⟨rfl, rfl, rfl, rfl, window_mapC rfl, ⟨0xC8FFF, by decide, by decide⟩, ⟨rfl, rfl, rfl⟩, rfl, by decide, by decide⟩

theorem witness_PlanComputesWindow :
    let s := at_ (.plan .reg (.imm 0x10000)) 0
    s.epc = ⟨.plan .reg (.imm 0x10000), 0⟩ :: [] ∧ operand? .reg (some s.D) = some 0xC800 ∧
      operand? (.imm 0x10000) (some s.L) = some 0x10000 := by decide

theorem witness_PlanIsAligned : legalD 0xA000 = true ∧ legalD 0xC900 = true ∧ legalD 0xF800 = true := by decide

theorem witness_OverlapScansWindow :
    let s := at_ (.overlap (.imm 0xC800) (.imm 0xCC00) (.imm 0x4000)) 0
    s.epc = ⟨.overlap (.imm 0xC800) (.imm 0xCC00) (.imm 0x4000), 0⟩ :: [] ∧
      operand? (.imm 0xC800) s.regs.S = some 0xC800 ∧ operand? (.imm 0xCC00) (some s.D) = some 0xCC00 ∧
      operand? (.imm 0x4000) (some s.L) = some 0x4000 ∧
      ∀ k ∈ (List.range 16).filter fun k =>
          !decide ((0xCC00 : Seg).toNat ≤ (0xC800 : Seg).toNat + 0x80 * k ∧
            (0xC800 : Seg).toNat + 0x80 * k < (0xCC00 : Seg).toNat + 0x4000 / 16),
        s.readable (((0xC800 : Seg).toNat + 0x80 * k) * 16) ∧
          s.readable (((0xC800 : Seg).toNat + 0x80 * k) * 16 + 1) := by
  refine ⟨rfl, rfl, rfl, rfl, fun k hk => ?_⟩
  have hk : k < 16 := List.mem_range.mp (List.mem_filter.mp hk).1
  rw [segC800]
  exact ⟨readable_mapC rfl rfl (by omega) (by omega), readable_mapC rfl rfl (by omega) (by omega)⟩

/-- A window that holds other ROMs: OTHER_MEM answers every probe (R64). -/
theorem witness_OverlapScansWindow_otherMem :
    let s := at_ (.overlap (.imm 0xB000) .reg .reg) 0
    s.epc = ⟨.overlap (.imm 0xB000) .reg .reg, 0⟩ :: [] ∧ operand? (.imm 0xB000) s.regs.S = some 0xB000 ∧
      operand? .reg (some s.D) = some 0xC800 ∧ operand? .reg (some s.L) = some 4096 ∧
      ∀ k < 16, s.readable (((0xB000 : Seg).toNat + 0x80 * k) * 16) ∧
        s.readable (((0xB000 : Seg).toNat + 0x80 * k) * 16 + 1) := by
  refine ⟨rfl, rfl, rfl, rfl, fun k hk => ?_⟩
  rw [show (0xB000 : Seg).toNat = 0xB000 from rfl]
  exact ⟨readable_other rfl (by omega), readable_other rfl (by omega)⟩

/-- One block of blank bytes at 0xC800: memory holds it. -/
def holding (i : Instr) : State := { at_ i 0 with img := [List.replicate 4096 0xFF] }

theorem holding_equal (i : Instr) : (holding i).blockEqual 0 := blockEqual_blank rfl rfl rfl rfl rfl

/-- One block of 0x00 at 0xC800, which memory does not hold: every byte can be read. -/
theorem differing_readable (i : Instr) : (at_ i 0).blockReadable 0 := by
  intro b hb
  have hb' : b < 4096 := hb
  have hi : (at_ i 0).img = [List.replicate 4096 0x00] := rfl
  have hD : (at_ i 0).D = 0xC800 := rfl
  refine ⟨readable_mapC rfl rfl ?_ ?_, 0x00, imgByte_replicate hi hb'⟩
  · simp only [State.pbase, physical, hD, segC800]; omega
  · simp only [State.pbase, physical, hD, segC800]; omega

/-- The same block at 0xA000, where OTHER_MEM answers. -/
theorem other_readable (i : Instr) : ({ at_ i 0 with D := 0xA000 } : State).blockReadable 0 := by
  intro b hb
  have hb' : b < 4096 := hb
  refine ⟨readable_other rfl ?_, 0x00, imgByte_replicate (n := 4096) rfl hb'⟩
  simp only [State.pbase, physical, show (0xA000 : Seg).toNat = 0xA000 from rfl]; omega

theorem witness_CompareBlockCompares :
    (holding (.compareBlock 0)).epc = ⟨.compareBlock 0, 0⟩ :: [] ∧ (holding (.compareBlock 0)).blockReadable 0 ∧
      (at_ (.compareBlock 0) 0).epc = ⟨.compareBlock 0, 0⟩ :: [] ∧ (at_ (.compareBlock 0) 0).blockReadable 0 ∧
      ({ at_ (.compareBlock 0) 0 with D := 0xA000 } : State).blockReadable 0 :=
  ⟨rfl, blockReadable_of_equal (holding_equal _), rfl, differing_readable _, other_readable _⟩

theorem witness_FlashIsIdempotent :
    (holding .flash).epc = ⟨.flash, 0⟩ :: [] ∧ (holding .flash).live ∧
      ∀ i, i < (holding .flash).NBLK → (holding .flash).blockEqual i := by
  refine ⟨rfl, ⟨rfl, rfl, rfl⟩, fun i hi => ?_⟩
  obtain rfl : i = 0 := Nat.lt_one_iff.mp hi
  exact holding_equal _

/-- FLASH at statement `k` with PR given, the last byte of block 0. -/
def flashing (k : Nat) (b : Nat) (PR : Bool) : State :=
  { at_ .flash k with
    regs := { Regs.unset with i := some 0, b := some b, CNT := some 0, equal := some false, PR := some PR } }

theorem witness_FlashErasesThenPrograms :
    ((at_ .flash 0).epc = ⟨.flash, 0⟩ :: [] ∧ (at_ .flash 0).live) ∧
      (let s := { at_ .flash 3 with regs := { Regs.unset with i := some 0, CNT := some 0 } }
       s.live ∧ s.regs.i = some 0 ∧ s.regs.b = none ∧ 0 < s.NBLK) ∧
      (0 < (flashing 3 0 true).NBLK ∧
      (let s := { flashing 3 0 true with regs := { (flashing 3 0 true).regs with i := some 1, equal := some true } }
       s.regs.i = some 1 ∧ s.NBLK = 1 ∧ s.regs.equal = some true)) ∧
      (flashing 5 0 true).epc = ⟨.flash, 5⟩ :: [] ∧ (flashing 5 0 true).live ∧
      (flashing 5 0 true).regs.equal = some false ∧ (flashing 7 0 true).regs.PR = some true ∧
      (flashing 7 0 false).regs.PR = some false ∧ (flashing 13 4095 true).regs.b = some 4095 ∧
      (flashing 13 4095 true).imgByte? 0 4095 = some 0 ∧ (flashing 13 4096 true).regs.b = some 4096 ∧
      (flashing 15 4095 true).regs.PR = some true ∧ (flashing 15 4095 false).regs.PR = some false := by
  refine ⟨⟨rfl, rfl, rfl, rfl⟩, ⟨⟨rfl, rfl, rfl⟩, rfl, rfl, by decide⟩, ⟨by decide, rfl, rfl, rfl⟩, rfl, ⟨rfl, rfl, rfl⟩, rfl, rfl, rfl, rfl, ?_, rfl, rfl, rfl⟩
  exact imgByte_replicate (n := 4096) rfl (by decide)

theorem witness_VerifyReadsBack :
    ((holding .verify).epc = ⟨.verify, 0⟩ :: [] ∧
      ∀ i, i < (holding .verify).NBLK → (holding .verify).blockReadable i) ∧
    ((at_ .verify 0).epc = ⟨.verify, 0⟩ :: [] ∧ ∀ i, i < (at_ .verify 0).NBLK → (at_ .verify 0).blockReadable i) ∧
    ({ at_ .verify 0 with D := 0xA000 } : State).blockReadable 0 := by
  refine ⟨⟨rfl, fun i hi => ?_⟩, ⟨rfl, fun i hi => ?_⟩, other_readable _⟩
  · obtain rfl : i = 0 := Nat.lt_one_iff.mp hi
    exact blockReadable_of_equal (holding_equal _)
  · obtain rfl : i = 0 := Nat.lt_one_iff.mp hi
    exact differing_readable _

theorem witness_RunEndsAsTabled :
    (∀ k, (at_ .run k).epc = ⟨.run, k⟩ :: [] ∧ (at_ .run k).live) ∧
      (let g := { Regs.unset with PARTF := some .none, S := some 0xC800, CNT := some (-1), VOK := some false }
       g.PARTF = some .none ∧ g.S ≠ none ∧ g.CNT = some (-1) ∧ g.VOK = some false) ∧
      (let g := { Regs.unset with PARTF := some (.known .SST39SF010), OVL := some true, CNT := some 1, VOK := some true }
       g.PARTF = some (.known .SST39SF010) ∧ g.OVL = some true ∧ g.CNT = some 1 ∧ g.VOK = some true) ∧
      isYes (State.key { State.reset with keys := [0x59] }) = true ∧
      isYes (State.key { State.reset with keys := [0x6E] }) = false :=
  ⟨fun _ => ⟨rfl, rfl, rfl, rfl⟩, by decide, by decide, by decide, by decide⟩

/-- P4 of 95 with one block. -/
theorem witness_MatchingImageRunExitsZero :
    let s := { testState State.reset with img := [List.replicate 4096 0xAA], keys := [0x79] }
    s.epc = [⟨.run, 0⟩] ∧ s.live ∧ s.err = none ∧ s.cfg.memcfg = .test ∧ s.dev.mode = .read ∧
      s.keys = 0x79 :: [] ∧ isYes 0x79 = true ∧ s.cfg.idStale < s.cfg.idReads ∧ s.cfg.testVendor = 0xBF ∧
      s.cfg.testDevice = Part.code .SST39SF010 ∧
      (0xC800 : Seg) = planSegment (if planRoundsUp (physical s.D 0) (planFloor (physical s.D 0)) s.L then
        planFloor (physical s.D 0) + WINDOW else planFloor (physical s.D 0)) ∧
      (∀ k, k < 16 → (∃ v, s.shows (((0xC800 : Seg).toNat + 0x80 * k) * 16) v) ∧
        ∃ v, s.shows (((0xC800 : Seg).toNat + 0x80 * k) * 16 + 1) v) ∧
      s.window 0xC800 ∧ s.idSector 0xC800 ∧ s.D = 0xC800 ∧ ∀ i, i < s.NBLK → s.blockEqual i := by
  refine ⟨rfl, ⟨rfl, rfl, rfl⟩, rfl, rfl, rfl, rfl, rfl, by decide, rfl, rfl, ?_, fun k hk => ?_, ?_, ?_, rfl, fun i hi => ?_⟩
  · rfl
  · rw [segC800]
    exact ⟨⟨_, shows_blank rfl rfl rfl (by omega) (by omega)⟩, _, shows_blank rfl rfl rfl (by omega) (by omega)⟩
  · exact ⟨⟨0x0D555, ⟨0xCD555, by decide, by decide⟩, by decide⟩, ⟨0x0AAAA, ⟨0xCAAAA, by decide, by decide⟩, by decide⟩⟩
  · exact ⟨⟨0x08000, ⟨0xC8000, by decide, by decide⟩, by decide⟩, ⟨0x08001, ⟨0xC8001, by decide, by decide⟩, by decide⟩⟩
  · obtain rfl : i = 0 := Nat.lt_one_iff.mp hi
    exact blockEqual_blank rfl rfl rfl rfl rfl

theorem witness_HaltStopsTheEngine : (at_ .halt 0).epc = ⟨.halt, 0⟩ :: [] ∧
    (let s := { moving .eng State.reset with halted := true }
     s.faults = [] ∧ s.nextMove = .eng ∧ s.halted = true) ∧
    (let s := { moving .eng State.reset with exit := some .one }
     s.faults = [] ∧ s.nextMove = .eng ∧ s.exit ≠ none) := by decide

theorem witness_AccessAboveWindowFaults : 0x100000 ≤ 0x100000 ∧ State.reset.faults = [] := by decide

theorem witness_AccessOutsideDevice : mapC.devAddr? 0xBFFFF = none ∧ mapC.devAddr? 0x0046C = none ∧
    mapC.memcfg = .real ∧ State.reset.faults = [] ∧ (testState State.reset).cfg.devAddr? 0xE0000 = none ∧
    (testState State.reset).cfg.memcfg = .test := by decide

theorem witness_UnsetRegisterFaults :
    (at_ .flash 14).faults = [] ∧ (operandRegs .flash (at_ .flash 14).stmt).find? (at_ .flash 14).lacks = some .i ∧
      (operandRegs .run (at_ .run 9).stmt).find? (at_ .run 9).lacks = some .OVL ∧
      (let s := { at_ (.idDecode .reg .reg) 0 with regs := { Regs.unset with VID := some 0xBF } }
       (operandRegs (.idDecode .reg .reg) s.stmt).find? s.lacks = some .DID) ∧
      (operandRegs (.detect (.imm 0xC800) .reg) (at_ (.detect (.imm 0xC800) .reg) 1).stmt).find?
        (at_ (.detect (.imm 0xC800) .reg) 1).lacks = none := by decide

theorem witness_CriticalSectionIsChecked : State.reset.stmt = 0 ∧ State.reset.IF = true ∧ State.reset.faults = [] ∧
    operand? (.imm 0xC800) State.reset.regs.S ≠ none ∧ operand? .reg State.reset.regs.S = none := by decide

theorem witness_TickCounts : mapC.wf = true := by decide

end Sys2Proof.Tests
end

/-! PROOFS. The scope's statements: the step of the engine (R12), the tick and the cycles outside DEV_MAP
(R11, R43, R64, R65, R70), and ID_DECODE (R183). -/

section
namespace Sys2Proof

/-! ## Rules of the shared operations -/

/-- M3 of R63: a legal DEV_MAP does not reach the tick byte. -/
theorem Config.devAddr?_tickAddr {c : Config} (h : c.wf = true) : c.devAddr? c.tickAddr = none := by
  simp only [Config.wf, Bool.and_eq_true, List.all_eq_true] at h
  obtain ⟨-, hregions⟩ := h
  simp only [Config.devAddr?, Config.sectorOf?, Option.map_eq_none_iff, List.find?_eq_none]
  intro r hr
  obtain ⟨⟨-, havoids⟩, -⟩ := hregions r hr
  simpa only [DevRegion.avoids, Bool.not_eq_true', Bool.not_eq_true] using havoids

namespace Machine

variable {s : State} {q : PhysAddr}

@[simp] theorem need_some {α : Type} (x : α) (name : RegName) (s : State) (k : α → Out) :
    need (some x) name s k = k x := rfl

@[simp] theorem need_none {α : Type} (name : RegName) (s : State) (k : α → Out) :
    need none name s k = .next (s.raise (.unsetRegister name)) := rfl

theorem State.raise_of_nil (h : s.faults = []) (f : FaultKind) : s.raise f = { s with faults := [f] } := by
  simp [State.raise, h]

theorem State.stmt_goto {f : Frame} {rest : List Frame} (h : s.epc = f :: rest) (k : Nat) : (s.goto k).stmt = k :=
  State.stmt_of_epc (State.goto_epc_of h k)

theorem State.goto_of_epc {i : Instr} {k : Nat} {rest : List Frame} (h : s.epc = ⟨i, k⟩ :: rest) :
    s.goto k = s := by
  simp only [State.goto, h]
  rw [← h]

theorem execN_succ {i : Instr} {t : State} (h : exec i s = .next t) (m : Nat) : execN i (m + 1) s = execN i m t := by
  simp [execN, h]

/-! ## The engine's step and the tick's -/

theorem State.ended_of_live (h : s.live) : s.ended = false := by
  obtain ⟨-, hexit, hhalted⟩ := h
  simp [State.ended, hexit, hhalted]

theorem State.moveTaken_ended (s : State) : s.moveTaken.ended = s.ended := by simp [State.ended]

theorem step_of_faults_nil (h : s.faults = []) : step s = agentStep s.nextMove s.moveTaken := by
  simp [step, machineStep, h]

theorem engStep_of_epc {f : Frame} {rest : List Frame} (hended : s.ended = false) (hepc : s.epc = f :: rest) :
    engStep s = exec f.op s := by
  simp [engStep, hended, hepc]

/-- Adding 1 to a byte wraps at 256 (R8, R43). -/
theorem byte_add_one (b : Byte) : b + 1 = BitVec.ofNat 8 ((b.toNat + 1) % 256) :=
  BitVec.eq_of_toNat_eq (by simp)

/-! ## Cycles outside DEV_MAP -/

theorem State.otherByte_tickAddr (s : State) : s.otherByte s.cfg.tickAddr = s.tick := if_pos rfl

theorem State.otherByte_real (hq : q ≠ s.cfg.tickAddr) (hc : s.cfg.memcfg = .real) :
    s.otherByte q = Config.otherMem s.hist q := by
  simp [State.otherByte, hq, hc]

theorem State.otherByte_test (hq : q ≠ s.cfg.tickAddr) (hc : s.cfg.memcfg = .test) :
    s.otherByte q = s.ramByte q := by
  simp [State.otherByte, hq, hc]

theorem State.busWrite_outside_real {ag : Agent} {v : Byte} (ha : s.cfg.devAddr? q = none)
    (hc : s.cfg.memcfg = .real) : s.busWrite ag q.toNat v = .stop (s.raise (.commandOutsideDevice q)) := by
  simp [State.busWrite, ha, hc]

theorem State.busWrite_outside_test {ag : Agent} {v : Byte} (ha : s.cfg.devAddr? q = none)
    (hc : s.cfg.memcfg = .test) : s.busWrite ag q.toNat v =
      .ok v ({ s with ram := Memory.write (blankByte .test) s.ram q.toNat v }.log ⟨ag, .W, q, v⟩) := by
  simp [State.busWrite, ha, hc]

/-- A write to the RAM of TEST changes the byte at its address and no other. -/
theorem State.ramByte_of_ram_write {t : State} {p : PhysAddr} {v : Byte}
    (h : t.ram = Memory.write (blankByte .test) s.ram p.toNat v) :
    t.ramByte q = if q = p then v else s.ramByte q := by
  simp only [State.ramByte, h, Memory.read_write, BitVec.toNat_inj]

/-! ## ID_DECODE -/

section IdDecode

variable {V W : Operand Byte} {vid did : Byte} {rest : List Frame}

theorem identifies_iff (p : Part) (vid did : Byte) : identifies p vid did = true ↔ vid = 0xBF ∧ did = p.code := by
  simp [identifies]

/-- The state in which ID_DECODE has returned with result `x`. -/
def State.idDecoded (s : State) (x : IdResult) (rest : List Frame) : State :=
  { s with regs := { s.regs with PARTF := some x }, epc := rest }

/-- From statement `k` ID_DECODE returns with result `x`. -/
def IdReturns (V W : Operand Byte) (s : State) (rest : List Frame) (k : Nat) (x : IdResult) : Prop :=
  ∃ m, execN (.idDecode V W) m (s.goto k) = .next (s.idDecoded x rest)

theorem idTest_of_set {p : Part} {yes no : Nat} (hv : operand? V s.regs.VID = some vid)
    (hw : operand? W s.regs.DID = some did) :
    idTest V W p yes no s = .next (s.goto (if identifies p vid did then yes else no)) := by
  simp [idTest, hv, hw]

/-- An assignment of PARTF ends the chain. -/
theorem IdReturns.set {k : Nat} {x : IdResult} (he : s.epc = ⟨.idDecode V W, 0⟩ :: rest)
    (hset : ∀ u : State, u.stmt = k → exec (.idDecode V W) u = idSet x u) : IdReturns V W s rest k x := by
  have hx : exec (.idDecode V W) (s.goto k) = .next (s.idDecoded x rest) := by
    rw [hset _ (State.stmt_goto he k)]
    simp [idSet, State.setRegs, State.ret, State.goto, State.idDecoded, he]
  exact ⟨1, execN_succ hx 0⟩

/-- One link of the chain (R183): the test for part `p` at statement `k`, the assignment of `p` behind it, and
the rest of the chain at `no`. -/
theorem IdReturns.link {k yes no : Nat} {p : Part} {x : IdResult} (he : s.epc = ⟨.idDecode V W, 0⟩ :: rest)
    (hv : operand? V s.regs.VID = some vid) (hw : operand? W s.regs.DID = some did)
    (htest : ∀ u : State, u.stmt = k → exec (.idDecode V W) u = idTest V W p yes no u)
    (hset : ∀ u : State, u.stmt = yes → exec (.idDecode V W) u = idSet (.known p) u)
    (hno : IdReturns V W s rest no x) :
    IdReturns V W s rest k (if vid = 0xBF ∧ did = p.code then .known p else x) := by
  have hx : exec (.idDecode V W) (s.goto k) = .next (s.goto (if identifies p vid did then yes else no)) := by
    rw [htest _ (State.stmt_goto he k), idTest_of_set (s := s.goto k) hv hw, State.goto_goto]
  have htail : IdReturns V W s rest (if identifies p vid did then yes else no)
      (if vid = 0xBF ∧ did = p.code then .known p else x) := by
    simp only [identifies_iff]
    split
    · exact .set he hset
    · exact hno
  obtain ⟨m, hm⟩ := htail
  exact ⟨m + 1, (execN_succ hx m).trans hm⟩

/-- The whole chain, in the rule's order (R183). -/
theorem idDecode_returns (he : s.epc = ⟨.idDecode V W, 0⟩ :: rest)
    (hv : operand? V s.regs.VID = some vid) (hw : operand? W s.regs.DID = some did) :
    IdReturns V W s rest 0
      (if vid = 0xBF ∧ did = Part.SST39SF512.code then .known .SST39SF512
        else if vid = 0xBF ∧ did = Part.SST39SF010.code then .known .SST39SF010
        else if vid = 0xBF ∧ did = Part.SST39SF020.code then .known .SST39SF020
        else if vid = 0xBF ∧ did = Part.SST39SF040.code then .known .SST39SF040
        else .none) := by
  have hnone : IdReturns V W s rest 8 .none := .set he fun u h => by simp only [exec, execIdDecode, h]
  refine .link he hv hw (yes := 1) (no := 2) ?_ ?_ (.link he hv hw (yes := 3) (no := 4) ?_ ?_
    (.link he hv hw (yes := 5) (no := 6) ?_ ?_ (.link he hv hw (yes := 7) (no := 8) ?_ ?_ hnone)))
  all_goals exact fun u h => by simp only [exec, execIdDecode, h]

/-- The first statement of ID_DECODE is its first test. -/
theorem exec_idDecode_first (he : s.epc = ⟨.idDecode V W, 0⟩ :: rest) :
    exec (.idDecode V W) s = idTest V W .SST39SF512 1 2 s := by
  simp only [exec, execIdDecode, State.stmt_of_epc he]

end IdDecode

/-! ## The obligations -/

/-- Settles O42: the chain of four tests read link by link, and the first test's operands. -/
theorem idDecodeSelectsPart : Obligations.IdDecodeSelectsPart := by
  intro s V W rest he
  refine ⟨fun vid did hv hw => ?_, fun hv => ?_, fun hv hw => ?_⟩
  · obtain ⟨m, hm⟩ := idDecode_returns he hv hw
    rw [State.goto_of_epc he] at hm
    exact ⟨m, hm⟩
  · rw [exec_idDecode_first he, idTest, hv, need_none]
  · obtain ⟨vid, hvid⟩ := Option.ne_none_iff_exists'.mp hv
    rw [exec_idDecode_first he, idTest, hvid, need_some, hw, need_none]

/-- Settles O56: a cycle outside DEV_MAP, by MEMCFG for a write and by the address for a read. -/
theorem accessOutsideDevice : Obligations.AccessOutsideDevice := by
  intro s ag p v ha
  refine ⟨fun hc hf => ?_, fun hc => ?_, ?_⟩
  · rw [State.busWrite_outside_real ha hc, State.raise_of_nil hf]
  · exact ⟨_, State.busWrite_outside_test ha hc, rfl, fun q => State.ramByte_of_ram_write rfl⟩
  · refine ⟨s.otherByte p, State.busRead_other (toPhys?_toNat p) ha, ?_, State.otherByte_real, State.otherByte_test⟩
    rintro rfl
    exact State.otherByte_tickAddr s

/-- Settles O4: no fault stops the agents, and an engine that has not ended has the top frame to execute. -/
theorem stepExecutesTopFrame : Obligations.StepExecutesTopFrame := by
  intro s f rest hlive hmove hepc
  have hended : s.moveTaken.ended = false := by rw [State.moveTaken_ended, State.ended_of_live hlive]
  have hfaults : s.faults = [] := hlive.1
  calc step s = engStep s.moveTaken := by rw [step_of_faults_nil hfaults, hmove]; rfl
    _ = exec f.op s.moveTaken := engStep_of_epc hended (by rw [State.moveTaken_epc, hepc])

/-- Settles O60: the tick's step is a byte's increment, and TICK_ADDR lies outside DEV_MAP (M3 of R63). -/
theorem tickCounts : Obligations.TickCounts := by
  refine ⟨fun s => ?_, fun s ag hwf => ?_⟩
  · rw [← byte_add_one]; rfl
  · have hread := State.busRead_other (ag := ag) (toPhys?_toNat _) (Config.devAddr?_tickAddr hwf)
    rw [hread, State.otherByte_tickAddr]; rfl

end Machine

end Sys2Proof
end

section
/-! PROOFS. The state: what any step but a completion does to the device, the RAM, FAULTS, the inputs and the
configuration is said once (`CoreStep`), and every invariant of these fields is a case analysis of it. -/

namespace Sys2Proof

/-! ## Addresses and procedures -/

theorem DevAddr.sector_lt {part : Part} {a : DevAddr} (h : a.toNat < part.devSize) :
    (DevAddr.sector a).toNat < part.sectors := by
  rw [DevAddr.toNat_sector]
  exact Nat.div_lt_of_lt_mul (by rwa [Part.devSize, Nat.mul_comm] at h)

theorem Instr.rank_mem (i : Instr) : i.rank ∈ Finset.Icc 1 5 := by
  cases i <;> exact of_decide_eq_true rfl

theorem Instr.length_pos (i : Instr) : 0 < i.length := by
  cases i <;> exact Nat.succ_pos _

namespace Machine

/-! ## The core of the state -/

/-- Two states agree on the configuration, the launch inputs, the device, FAULTS and the RAM. -/
structure SameCore (s t : State) : Prop where
  cfg : t.cfg = s.cfg
  D : t.D = s.D
  img : t.img = s.img
  orig : t.orig = s.orig
  dev : t.dev = s.dev
  faults : t.faults = s.faults
  ram : t.ram = s.ram

variable {s t u : State}

theorem SameCore.refl (s : State) : SameCore s s := ⟨rfl, rfl, rfl, rfl, rfl, rfl, rfl⟩

theorem SameCore.trans (h : SameCore s t) (h' : SameCore t u) : SameCore s u :=
  ⟨h'.cfg.trans h.cfg, h'.D.trans h.D, h'.img.trans h.img, h'.orig.trans h.orig, h'.dev.trans h.dev,
    h'.faults.trans h.faults, h'.ram.trans h.ram⟩

theorem EngineOnly.sameCore (h : EngineOnly s t) : SameCore s t :=
  ⟨h.cfg, h.D, h.img, h.orig, h.dev, h.faults, h.ram⟩

theorem State.moveTaken_sameCore (s : State) : SameCore s s.moveTaken := by constructor <;> simp

theorem State.tickStep_sameCore (s : State) : SameCore s s.tickStep := ⟨rfl, rfl, rfl, rfl, rfl, rfl, rfl⟩

/-- What a step that is no completion does: nothing, one accepted device cycle, one write to the RAM of TEST, or one
recorded fault, which is a violation or leaves the device alone (R67, R122, R139, R263). -/
inductive CoreUpdate (s : State) : State → Prop where
  | none : CoreUpdate s s
  | devRead (a : DevAddr) (m : DevMode) (ha : s.readAnswer a = .draw m) : CoreUpdate s (s.setMode m)
  | devWrite (q : PhysAddr) (a : DevAddr) (v : Byte) (m : DevMode) (hq : s.cfg.devAddr? q = some a)
      (hm : Dev.writeMode s.cfg s.dev.mode a v = some m) : CoreUpdate s (s.setMode m)
  | ramWrite (q : PhysAddr) (v : Byte) :
      CoreUpdate s { s with ram := Memory.write (blankByte .test) s.ram q.toNat v }
  | raised (f : FaultKind) (hf : f ≠ .protocolViolation) : CoreUpdate s (s.raise f)
  | violated : CoreUpdate s s.violate

/-- The core of `t` is that of `s` after one such update. -/
def CoreStep (s t : State) : Prop := ∃ u, CoreUpdate s u ∧ SameCore u t

theorem SameCore.coreStep (h : SameCore s t) : CoreStep s t := ⟨s, .none, h⟩

theorem CoreUpdate.coreStep (h : CoreUpdate s t) : CoreStep s t := ⟨t, h, .refl t⟩

theorem CoreStep.andThen (h : CoreStep s t) (h' : SameCore t u) : CoreStep s u :=
  let ⟨w, hw, hwt⟩ := h
  ⟨w, hw, hwt.trans h'⟩

theorem SameCore.raise (h : SameCore s t) (f : FaultKind) : SameCore (s.raise f) (t.raise f) :=
  ⟨h.cfg, h.D, h.img, h.orig, h.dev, by simp only [State.raise_faults, h.faults], h.ram⟩

theorem SameCore.setMode (h : SameCore s t) (m : DevMode) : SameCore (s.setMode m) (t.setMode m) :=
  ⟨h.cfg, h.D, h.img, h.orig, by simp only [State.setMode_dev, h.dev], h.faults, h.ram⟩

theorem SameCore.violate (h : SameCore s t) : SameCore s.violate t.violate :=
  ⟨h.cfg, h.D, h.img, h.orig, by simp only [State.violate_dev, h.dev], by simp only [State.violate_faults, h.faults],
    h.ram⟩

theorem SameCore.readAnswer (h : SameCore s t) (a : DevAddr) : t.readAnswer a = s.readAnswer a := by
  simp only [State.readAnswer, State.arrayByte, h.dev, h.cfg]

/-- The update looks at nothing but the core. -/
theorem SameCore.andThen (h : SameCore s t) (h' : CoreStep t u) : CoreStep s u := by
  obtain ⟨w, hw, hwu⟩ := h'
  cases hw with
  | none => exact ⟨s, .none, h.trans hwu⟩
  | devRead a m ha => exact ⟨_, .devRead a m (h.readAnswer a ▸ ha), (h.setMode m).trans hwu⟩
  | devWrite q a v m hq hm =>
    exact ⟨_, .devWrite q a v m (h.cfg ▸ hq) (h.cfg ▸ h.dev ▸ hm), (h.setMode m).trans hwu⟩
  | ramWrite q v =>
    refine ⟨_, .ramWrite q v, SameCore.trans ?_ hwu⟩
    exact ⟨h.cfg, h.D, h.img, h.orig, h.dev, h.faults, by simp only [h.ram]⟩
  | raised f hf => exact ⟨_, .raised f hf, (h.raise f).trans hwu⟩
  | violated => exact ⟨_, .violated, h.violate.trans hwu⟩

/-! ## Bus cycles, statements and steps -/

/-- A device that keeps its array and DEV.fault changes by its mode alone. -/
theorem State.dev_eq_setMode {m : DevMode} (hm : t.dev.mode = m) (ha : t.dev.array = s.dev.array)
    (hf : t.dev.fault = s.dev.fault) : t.dev = (s.setMode m).dev := by
  change t.dev = ⟨m, s.dev.array, s.dev.fault⟩
  rw [← hm, ← ha, ← hf]

/-- A read by any agent. -/
theorem State.busRead_coreStep {ag : Agent} {p : Nat}
    (h : (∃ v, s.busRead ag p = .ok v t) ∨ s.busRead ag p = .stop t) : CoreStep s t := by
  rcases h with ⟨v, h⟩ | h
  · obtain ⟨hframe, hfaults, hram, hfault, -, -, -, ⟨hdev, -⟩ | ⟨a, m, -, ha, -, hm, -⟩⟩ := State.busRead_ok h
    · exact ⟨_, .none, hframe.cfg, hframe.D, hframe.img, hframe.orig, hdev, hfaults, hram⟩
    · exact ⟨_, .devRead a m ha, hframe.cfg, hframe.D, hframe.img, hframe.orig,
        State.dev_eq_setMode hm hframe.array hfault, hfaults, hram⟩
  · obtain ⟨-, rfl⟩ | ⟨q, a, -, -, -, rfl⟩ := State.busRead_stop h
    · exact (CoreUpdate.raised _ (by simp)).coreStep
    · exact ⟨_, .violated, rfl, rfl, rfl, rfl, rfl, rfl, rfl⟩

/-- A write by any agent. -/
theorem State.busWrite_coreStep {ag : Agent} {p : Nat} {v : Byte}
    (h : (∃ x, s.busWrite ag p v = .ok x t) ∨ s.busWrite ag p v = .stop t) : CoreStep s t := by
  rcases h with ⟨x, h⟩ | h
  · obtain ⟨hframe, hfaults, hfault, -, q, -, -, ⟨a, m, ha, hw, hm, hram⟩ | ⟨-, -, hdev, hram⟩⟩ :=
      State.busWrite_ok h
    · exact ⟨_, .devWrite q a v m ha hw, hframe.cfg, hframe.D, hframe.img, hframe.orig,
        State.dev_eq_setMode hm hframe.array hfault, hfaults, hram⟩
    · exact ⟨_, .ramWrite q v, hframe.cfg, hframe.D, hframe.img, hframe.orig, hdev, hfaults, hram⟩
  · obtain ⟨-, rfl⟩ | ⟨q, a, -, -, -, rfl⟩ | ⟨q, -, -, -, rfl⟩ := State.busWrite_stop h
    · exact (CoreUpdate.raised _ (by simp)).coreStep
    · exact ⟨_, .violated, rfl, rfl, rfl, rfl, rfl, rfl, rfl⟩
    · exact (CoreUpdate.raised _ (by simp)).coreStep

/-- What one statement does to the core. -/
theorem Effect.coreStep (h : Effect s t) : CoreStep s t := by
  cases h with
  | engine h => exact h.sameCore.coreStep
  | raised f hf => exact (CoreUpdate.raised f hf).coreStep
  | read p v u hb h => exact (State.busRead_coreStep (.inl ⟨v, hb⟩)).andThen h.sameCore
  | readStop p hb => exact State.busRead_coreStep (.inr hb)
  | write p v x u hb h => exact (State.busWrite_coreStep (.inl ⟨x, hb⟩)).andThen h.sameCore
  | writeStop p v hb => exact State.busWrite_coreStep (.inr hb)

theorem exec_coreStep {i : Instr} (h : exec i s = .next t) : CoreStep s t := (exec_effect h).coreStep

theorem EngCase.coreStep (h : EngCase s t) : CoreStep s t := by
  cases h with
  | idle h => exact h ▸ (SameCore.refl s).coreStep
  | frame f rest _ h => exact exec_coreStep h
  | fetch i rest _ _ _ h =>
    exact SameCore.andThen (t := s.fetched i) ⟨rfl, rfl, rfl, rfl, rfl, rfl, rfl⟩ (exec_coreStep h)
  | word w ws _ _ h =>
    exact SameCore.andThen (t := { s with queue := ws }) ⟨rfl, rfl, rfl, rfl, rfl, rfl, rfl⟩
      (issueWord_effect h).coreStep

theorem isrStep_coreStep {p : PhysAddr} (h : isrStep p s = .next t) : CoreStep s t := by
  obtain ⟨-, rfl⟩ | ⟨-, h⟩ := isrStep_cases h
  · exact (SameCore.refl t).coreStep
  · exact State.busRead_coreStep h

/-- DEV's step does nothing unless an erase or a program is in progress (R138, R140). -/
theorem State.complete_of_not_busy (h : s.busy = false) : s.complete = s := by
  unfold State.complete
  split
  next hm => simp [State.busy, hm] at h
  next hm => simp [State.busy, hm] at h
  all_goals rfl

/-- What a step does to the core: an update, or DEV completes what a busy device is doing. -/
theorem step_core (h : step s = .next t) :
    CoreStep s t ∨ (s.nextMove = .dev ∧ s.busy = true ∧ t = s.moveTaken.complete) := by
  have hmove := s.moveTaken_sameCore
  cases (step_cases h).2 with
  | eng _ h => exact .inl (hmove.andThen h.coreStep)
  | dev hm h =>
    cases hbusy : s.busy with
    | true => exact .inr ⟨hm, rfl, h⟩
    | false =>
      have hb : s.moveTaken.busy = false := by simpa [State.busy] using hbusy
      rw [State.complete_of_not_busy hb] at h
      exact .inl (h ▸ hmove.coreStep)
  | tick _ h => exact .inl (h ▸ (hmove.trans (State.tickStep_sameCore _)).coreStep)
  | isr p _ h => exact .inl (hmove.andThen (isrStep_coreStep h))

/-- A property of the core that every update and every completion keeps is kept by every step. -/
theorem step_keeps {P : State → Prop} (hsame : ∀ {u v}, SameCore u v → P u → P v)
    (hupdate : ∀ {u v}, CoreUpdate u v → P u → P v) (hcomplete : ∀ {u}, P u → P u.complete)
    (h : step s = .next t) (hs : P s) : P t := by
  rcases step_core h with ⟨u, hu, hut⟩ | ⟨-, -, rfl⟩
  · exact hsame hut (hupdate hu hs)
  · exact hcomplete (hsame s.moveTaken_sameCore hs)

/-! ## The mode after an accepted cycle -/

/-- An accepted read that gives a draw leaves the mode, but for the stale count of ID (R127, R137, R142). -/
theorem State.mode_of_readAnswer_draw {a : DevAddr} {m : DevMode} (h : s.readAnswer a = .draw m) :
    m = s.dev.mode ∨ ∃ n k, s.dev.mode = .id n ∧ m = .id k := by
  cases hm : s.dev.mode with
  | read | u1 | u2 | e1 | e2 | e3 | p1 => simp [State.readAnswer, hm] at h
  | ebusy | pbusy | indet => simpa [State.readAnswer, hm, eq_comm] using h
  | id n =>
    refine .inr ⟨n, n - 1, rfl, ?_⟩
    cases n with
    | zero =>
      simp only [State.readAnswer, hm] at h
      repeat' split at h
      all_goals cases h
      rfl
    | succ k => simpa [State.readAnswer, hm, eq_comm] using h

/-- An accepted read neither enters nor leaves INDET (R122, R142). -/
theorem State.readAnswer_draw_indet {a : DevAddr} {m : DevMode} (h : s.readAnswer a = .draw m) :
    m = .indet ↔ s.dev.mode = .indet := by
  rcases State.mode_of_readAnswer_draw h with rfl | ⟨n, k, hn, rfl⟩
  · rfl
  · simp [hn]

/-- An accepted read leaves the busy registers in range (R23). -/
theorem State.readAnswer_draw_inPart {a : DevAddr} {m : DevMode} (h : s.readAnswer a = .draw m)
    (hs : s.dev.mode.inPart s.cfg.part) : m.inPart s.cfg.part := by
  rcases State.mode_of_readAnswer_draw h with rfl | ⟨n, k, -, rfl⟩
  · exact hs
  · trivial

/-- An accepted write neither enters nor leaves INDET (R122, R142). -/
theorem Dev.writeMode_indet {c : Config} {m m' : DevMode} {a : DevAddr} {v : Byte}
    (h : Dev.writeMode c m a v = some m') : m' = .indet ↔ m = .indet := by
  cases m with
  | indet => cases h; rfl
  | ebusy | pbusy => cases h
  | read | u1 | u2 | id | e1 | e2 | e3 | p1 =>
    simp only [Dev.writeMode] at h
    repeat' split at h
    all_goals cases h
    all_goals exact iff_of_false nofun nofun

/-- A write that the device accepts at an address of the part sets busy registers in range (R23, R92). -/
theorem Dev.writeMode_inPart {c : Config} {m m' : DevMode} {a : DevAddr} {v : Byte}
    (h : Dev.writeMode c m a v = some m') (ha : a.toNat < c.part.devSize) : m'.inPart c.part := by
  cases m with
  | p1 => cases h; exact ha
  | e3 =>
    simp only [Dev.writeMode] at h
    split at h <;> cases h
    exact DevAddr.sector_lt ha
  | read | u1 | u2 | id | e1 | e2 | ebusy | pbusy | indet =>
    simp only [Dev.writeMode] at h
    repeat' split at h
    all_goals cases h
    all_goals trivial

/-! ## The configuration, the inputs, the array and FAULTS -/

/-- The configuration and the launch inputs of one state are those of another. -/
def SameInputs (s t : State) : Prop := t.cfg = s.cfg ∧ t.D = s.D ∧ t.img = s.img ∧ t.orig = s.orig

theorem SameInputs.trans (h : SameInputs s t) (h' : SameInputs t u) : SameInputs s u := by
  obtain ⟨hcfg, hD, himg, horig⟩ := h
  obtain ⟨hcfg', hD', himg', horig'⟩ := h'
  exact ⟨hcfg'.trans hcfg, hD'.trans hD, himg'.trans himg, horig'.trans horig⟩

theorem SameCore.sameInputs (h : SameCore s t) : SameInputs s t := ⟨h.cfg, h.D, h.img, h.orig⟩

theorem CoreUpdate.sameInputs (h : CoreUpdate s t) : SameInputs s t := by
  cases h <;> exact ⟨rfl, rfl, rfl, rfl⟩

theorem State.complete_sameInputs (s : State) : SameInputs s s.complete := by
  unfold State.complete
  split <;> exact ⟨rfl, rfl, rfl, rfl⟩

theorem CoreStep.sameInputs (h : CoreStep s t) : SameInputs s t :=
  let ⟨_, hu, hut⟩ := h
  hu.sameInputs.trans hut.sameInputs

theorem CoreStep.array (h : CoreStep s t) : t.dev.array = s.dev.array := by
  obtain ⟨u, hu, hut⟩ := h
  rw [hut.dev]
  cases hu <;> rfl

theorem CoreStep.faults_subset (h : CoreStep s t) : s.faults ⊆ t.faults := by
  obtain ⟨u, hu, hut⟩ := h
  rw [hut.faults]
  cases hu with
  | none | devRead | devWrite | ramWrite => exact List.Subset.refl _
  | raised f => exact s.faults_subset_raise f
  | violated => exact State.faults_subset_raise _ _

/-! ## The memory invariant -/

theorem SameCore.memInv (h : SameCore s t) (hs : MemInv s) : MemInv t := by
  obtain ⟨hcfg, harray, hram, hbusy⟩ := hs
  constructor <;> simpa only [h.cfg, h.dev, h.ram]

/-- Addresses of a legal DEV_MAP lie in the part, and host addresses below 1 MiB (R62, R92). -/
theorem CoreUpdate.memInv (h : CoreUpdate s t) (hs : MemInv s) : MemInv t := by
  cases h with
  | none => exact hs
  | devRead a m ha =>
    have hbusy := State.readAnswer_draw_inPart ha hs.busy
    exact ⟨hs.cfg, hs.array, hs.ram, hbusy⟩
  | devWrite q a v m hq hm =>
    exact ⟨hs.cfg, hs.array, hs.ram, Dev.writeMode_inPart hm (Config.devAddr?_lt hs.cfg hq)⟩
  | ramWrite q v => exact ⟨hs.cfg, hs.array, Memory.write_wf hs.ram q.isLt, hs.busy⟩
  | raised f _ => exact ⟨hs.cfg, hs.array, hs.ram, hs.busy⟩
  | violated => exact ⟨hs.cfg, hs.array, hs.ram, trivial⟩

/-- A completion writes one sector or one byte of the part (R138, R140). -/
theorem State.complete_memInv (hs : MemInv s) : MemInv s.complete := by
  obtain ⟨hcfg, harray, hram, hbusy⟩ := hs
  unfold State.complete
  split
  next sec hm =>
    have hsec : sec.toNat < s.cfg.part.sectors := by rwa [hm] at hbusy
    refine ⟨hcfg, Memory.fill_wf harray ?_, hram, trivial⟩
    exact Nat.succ_mul _ _ ▸ Nat.mul_le_mul_right SECTOR hsec
  next pa pd hm =>
    have hpa : pa.toNat < s.cfg.part.devSize := by rwa [hm] at hbusy
    exact ⟨hcfg, Memory.write_wf harray hpa, hram, trivial⟩
  all_goals exact ⟨hcfg, harray, hram, hbusy⟩

/-! ## The fault invariant -/

theorem SameCore.faultInv (h : SameCore s t) (hs : FaultInv s) : FaultInv t := by
  obtain ⟨hmode, hrecorded, hnodup⟩ := hs
  constructor <;> simpa only [h.dev, h.faults]

theorem State.raise_nodup (h : s.faults.Nodup) (f : FaultKind) : (s.raise f).faults.Nodup := by
  rw [State.raise_faults]
  split
  · exact h
  · exact h.append (List.nodup_singleton f) (by simpa)

theorem State.mem_raise_of_ne {f g : FaultKind} (h : g ≠ f) : g ∈ (s.raise f).faults ↔ g ∈ s.faults := by
  rw [State.raise_faults]
  split
  · rfl
  · simp [h]

theorem State.setMode_faultInv {m : DevMode} (hm : m = .indet ↔ s.dev.mode = .indet) (hs : FaultInv s) :
    FaultInv (s.setMode m) :=
  ⟨hs.mode.trans hm.symm, hs.recorded, hs.nodup⟩

/-- INDET is entered by a violation alone, which records ProtocolViolation (R139). -/
theorem CoreUpdate.faultInv (h : CoreUpdate s t) (hs : FaultInv s) : FaultInv t := by
  cases h with
  | none => exact hs
  | devRead a m ha => exact State.setMode_faultInv (State.readAnswer_draw_indet ha) hs
  | devWrite q a v m hq hm => exact State.setMode_faultInv (Dev.writeMode_indet hm) hs
  | ramWrite q v => exact ⟨hs.mode, hs.recorded, hs.nodup⟩
  | raised f hf =>
    exact ⟨hs.mode, hs.recorded.trans (State.mem_raise_of_ne hf.symm).symm, State.raise_nodup hs.nodup f⟩
  | violated =>
    exact ⟨by simp, iff_of_true rfl (State.mem_raise _ _), State.raise_nodup (s := { s with dev := _ }) hs.nodup _⟩

/-- A completion leaves a busy mode, so that neither side is INDET (R138, R140). -/
theorem State.complete_faultInv (hs : FaultInv s) : FaultInv s.complete := by
  obtain ⟨hmode, hrecorded, hnodup⟩ := hs
  unfold State.complete
  split
  next hm => exact ⟨by simpa [hm] using hmode, hrecorded, hnodup⟩
  next hm => exact ⟨by simpa [hm] using hmode, hrecorded, hnodup⟩
  all_goals exact ⟨hmode, hrecorded, hnodup⟩

/-! ## EPC -/

/-- Ranks rise from 1 to at most 5, so that the deepest chain of calls has 5 frames (R38). -/
theorem EpcWf.length_le {epc : List Frame} (h : EpcWf epc) : epc.length ≤ 5 := by
  have hnodup : (epc.map fun f => f.op.rank).Nodup := List.pairwise_map.mpr (h.1.imp Nat.ne_of_lt)
  have hsub : (epc.map fun f => f.op.rank).toFinset ⊆ Finset.Icc 1 5 := by
    intro r hr
    obtain ⟨f, -, rfl⟩ := List.mem_map.mp (List.mem_toFinset.mp hr)
    exact f.op.rank_mem
  have hcard := Finset.card_le_card hsub
  rwa [List.toFinset_card_of_nodup hnodup, List.length_map, Nat.card_Icc] at hcard

theorem EpcWf.tail {f : Frame} {rest : List Frame} (h : EpcWf (f :: rest)) : EpcWf rest :=
  ⟨h.1.of_cons, fun g hg => h.2 g (List.mem_cons_of_mem _ hg)⟩

theorem epcWf_singleton {i : Instr} (h : 0 < i.length) : EpcWf [⟨i, 0⟩] := by
  simpa [EpcWf] using h

/-- The frame on top moves to another statement of its procedure. -/
theorem EpcWf.goto {f : Frame} {rest : List Frame} {k : Nat} (h : EpcWf (f :: rest)) (hk : k < f.op.length) :
    EpcWf ({ f with idx := k } :: rest) := by
  obtain ⟨hrank, hidx⟩ := h
  rw [List.pairwise_cons] at hrank
  rw [List.forall_mem_cons] at hidx
  exact ⟨List.pairwise_cons.mpr hrank, List.forall_mem_cons.mpr ⟨hk, hidx.2⟩⟩

/-- A procedure of lower rank than the frame on top is called. -/
theorem EpcWf.push {f : Frame} {rest : List Frame} {j : Instr} (h : EpcWf (f :: rest)) (hj : j.rank < f.op.rank)
    (hl : 0 < j.length) : EpcWf (⟨j, 0⟩ :: f :: rest) := by
  obtain ⟨hrank, hidx⟩ := h
  have habove : ∀ g ∈ f :: rest, j.rank < g.op.rank :=
    List.forall_mem_cons.mpr ⟨hj, fun g hg => hj.trans (List.rel_of_pairwise_cons hrank hg)⟩
  exact ⟨List.pairwise_cons.mpr ⟨habove, hrank⟩, List.forall_mem_cons.mpr ⟨hl, hidx⟩⟩

/-- A statement of the frame on top keeps the stack (R38). -/
theorem EpcStep.epcWf {f : Frame} {rest e : List Frame} (h : EpcStep f.op (f :: rest) e) (hs : EpcWf (f :: rest)) :
    EpcWf e := by
  cases h with
  | stay => exact hs
  | goto k hk => exact hs.goto hk
  | ret => exact hs.tail
  | call j k hj hk hl => exact (hs.goto hk).push hj hl

theorem issueWord_epc {c : Dcw} (h : issueWord c s = .next t) : t.epc = s.epc := by
  have hall : NextAll (fun t => t.epc = s.epc) (issueWord c s) := by
    unfold issueWord
    split
    · simp
    · split
      · exact nextAll_engWrite (fun _ _ => State.busWrite_ok_epc) fun _ => State.busWrite_stop_epc
      · exact nextAll_engRead (fun _ _ => State.busRead_ok_epc) fun _ => State.busRead_stop_epc
  exact hall t h

theorem EngCase.stackInv (h : EngCase s t) (hs : StackInv s) : StackInv t := by
  cases h with
  | idle h => exact h ▸ hs
  | frame f rest he h =>
    have hstep := exec_epc h
    rw [StackInv, he] at hs
    rw [he] at hstep
    exact hstep.epcWf hs
  | fetch i rest he hd hw h => exact (exec_epc h).epcWf (f := ⟨i, 0⟩) (epcWf_singleton i.length_pos)
  | word w ws he hq h => rwa [StackInv, issueWord_epc h]

theorem State.complete_epc (s : State) : s.complete.epc = s.epc := by
  unfold State.complete
  split <;> rfl

theorem isrStep_epc {p : PhysAddr} (h : isrStep p s = .next t) : t.epc = s.epc := by
  obtain ⟨-, rfl⟩ | ⟨-, ⟨v, h⟩ | h⟩ := isrStep_cases h
  · rfl
  · exact State.busRead_ok_epc h
  · exact State.busRead_stop_epc h

theorem step_stackInv (h : step s = .next t) (hs : StackInv s) : StackInv t := by
  have hmove : StackInv s.moveTaken := by rwa [StackInv, State.moveTaken_epc]
  cases (step_cases h).2 with
  | eng _ h => exact h.stackInv hmove
  | dev _ h => rwa [h, StackInv, State.complete_epc]
  | tick _ h => exact h ▸ hmove
  | isr p _ h => rwa [StackInv, isrStep_epc h]

/-! ## The obligations on steps -/

/-- Settles O11: each update and each completion keeps the memories. -/
theorem stepKeepsMemoryInvariant : Obligations.StepKeepsMemoryInvariant :=
  fun _ _ hs h => step_keeps SameCore.memInv CoreUpdate.memInv State.complete_memInv h hs

/-- Settles O13: a step moves, pops or pushes the frame on top, and ranks are at most 5. -/
theorem stepKeepsCallStack : Obligations.StepKeepsCallStack :=
  ⟨fun _ _ hs h => step_stackInv h hs, fun _ hs => EpcWf.length_le hs⟩

/-- Settles O12: INDET is entered by a violation alone, and a completion leaves a busy mode. -/
theorem stepKeepsFaultInvariant : Obligations.StepKeepsFaultInvariant :=
  fun _ _ hs h => step_keeps SameCore.faultInv CoreUpdate.faultInv State.complete_faultInv h hs

/-- Settles O15: no update and no completion writes the configuration or an input. -/
theorem stepKeepsConfigAndInputs : Obligations.StepKeepsConfigAndInputs :=
  fun s _ h => step_keeps (P := SameInputs s) (fun hsame hs => hs.trans hsame.sameInputs)
    (fun hupdate hs => hs.trans hupdate.sameInputs) (fun hs => hs.trans (State.complete_sameInputs _)) h
    ⟨rfl, rfl, rfl, rfl⟩

/-- Settles O17: an update keeps the array, and every step but a busy device's is one. -/
theorem arrayChangesOnlyByCompletion : Obligations.ArrayChangesOnlyByCompletion := by
  refine ⟨fun i s t h => (exec_coreStep h).array, fun s t h => ?_⟩
  rcases step_core h with h | ⟨hm, hbusy, -⟩
  · exact .inl h.array
  · exact .inr ⟨hm, hbusy⟩

end Machine

end Sys2Proof
end

section
/-! PROOFS. The engine: the form of every statement is said once (`Shape`): which registers it looks at and in which
order, the one cycle that it can make, and what it then writes. Whether it answers, what it writes and which unset
register it reports are read off that form. -/

namespace Sys2Proof

/-- A statement past the end of a procedure reads no register. -/
theorem Machine.operandRegs_of_length_le {i : Instr} {n : Nat} (h : i.length ≤ n) : Machine.operandRegs i n = [] := by
  obtain ⟨m, rfl⟩ := Nat.exists_eq_add_of_le' h
  cases i <;> rfl

/-- `s` with the registers, the output, ERR and IF that procedure `i` writes taken from `u` (R29, R31, R37, R41,
R42). -/
def Instr.written (i : Instr) (s u : Machine.State) : Machine.State :=
  match i with
  | .poll _ _ _ =>
    { s with regs := { s.regs with PR := u.regs.PR, n := u.regs.n, nMax := u.regs.nMax, r := u.regs.r } }
  | .cal _ =>
    { s with regs := { s.regs with T := u.regs.T, N := u.regs.N, t0 := u.regs.t0, t1 := u.regs.t1,
                                   probe := u.regs.probe, calP := u.regs.calP } }
  | .waitErase _ => { s with regs := { s.regs with PR := u.regs.PR, j := u.regs.j } }
  | .csEnter | .csExit => { s with IF := u.IF }
  | .detect _ _ => { s with regs := { s.regs with VID := u.regs.VID, DID := u.regs.DID, rep := u.regs.rep } }
  | .idDecode _ _ => { s with regs := { s.regs with PARTF := u.regs.PARTF } }
  | .plan _ _ => { s with regs := { s.regs with S := u.regs.S, dest := u.regs.dest, seq := u.regs.seq } }
  | .overlap _ _ _ =>
    { s with regs := { s.regs with OVL := u.regs.OVL, curr := u.regs.curr, b0 := u.regs.b0, b1 := u.regs.b1 } }
  | .compareBlock _ => { s with regs := { s.regs with b := u.regs.b, equal := u.regs.equal } }
  | .flash => { s with regs := { s.regs with CNT := u.regs.CNT, i := u.regs.i, b := u.regs.b }, err := u.err }
  | .verify => { s with regs := { s.regs with VOK := u.regs.VOK, i := u.regs.i, b := u.regs.b } }
  | .run => { s with regs := { s.regs with ANS := u.regs.ANS }, msg := u.msg, exit := u.exit, err := u.err }
  | .halt => { s with halted := u.halted }
  | .readArray _ _ | .swidEntry _ _ _ | .swidRead _ _ | .swidExit _ | .sectorErase _ _ _ _ _ _
  | .byteProgram _ _ _ _ _ | .statusRead _ _ | .waitProgram _ _ | .eraseSector _ _ | .programByte _ _ _ => s

namespace Machine

variable {i : Instr} {s t u : State}

/-! ## What a procedure writes -/

/-- Two states agree on the registers, IF, the output and ERR. -/
structure SameEngine (s t : State) : Prop where
  regs : t.regs = s.regs
  IF : t.IF = s.IF
  msg : t.msg = s.msg
  exit : t.exit = s.exit
  halted : t.halted = s.halted
  err : t.err = s.err

/-- From `s` to `t` nothing of the engine changes but what `i` writes, and MSG at most by a token at its end. -/
structure Writes (i : Instr) (s t : State) : Prop where
  own : SameEngine (i.written s t) t
  msg : t.msg = s.msg ∨ ∃ m, t.msg = s.msg ++ [m]

theorem SameEngine.trans (h : SameEngine s t) (h' : SameEngine t u) : SameEngine s u :=
  ⟨h'.regs.trans h.regs, h'.IF.trans h.IF, h'.msg.trans h.msg, h'.exit.trans h.exit, h'.halted.trans h.halted,
    h'.err.trans h.err⟩

theorem BusFrame.sameEngine (h : BusFrame s t) : SameEngine s t :=
  ⟨h.regs, h.IF, h.msg, h.exit, h.halted, h.err⟩

theorem SameEngine.written (h : SameEngine s t) (i : Instr) (u : State) :
    SameEngine (i.written s u) (i.written t u) := by
  obtain ⟨hregs, hIF, hmsg, hexit, hhalted, herr⟩ := h
  cases i <;> constructor <;> simp only [Instr.written, hregs, hIF, hmsg, hexit, hhalted, herr]

theorem SameEngine.andThen (h : SameEngine s t) (h' : Writes i t u) : Writes i s u :=
  ⟨(h.written i u).trans h'.own, h.msg ▸ h'.msg⟩

theorem Writes.refl (i : Instr) (s : State) : Writes i s s :=
  ⟨by cases i <;> exact ⟨rfl, rfl, rfl, rfl, rfl, rfl⟩, .inl rfl⟩

theorem SameEngine.writes (h : SameEngine s t) : Writes i s t := h.andThen (.refl i t)

theorem State.keyTaken_sameEngine (s : State) : SameEngine s s.keyTaken := by
  unfold State.keyTaken
  split <;> exact ⟨rfl, rfl, rfl, rfl, rfl, rfl⟩

theorem State.keyTaken_faults (s : State) : s.keyTaken.faults = s.faults := by
  unfold State.keyTaken
  split <;> rfl

theorem State.busRead_stop_sameEngine {ag : Agent} {p : Nat} (h : s.busRead ag p = .stop t) : SameEngine s t := by
  obtain ⟨-, rfl⟩ | ⟨q, a, -, -, -, rfl⟩ := State.busRead_stop h <;> exact ⟨rfl, rfl, rfl, rfl, rfl, rfl⟩

theorem State.busWrite_stop_sameEngine {ag : Agent} {p : Nat} {v : Byte} (h : s.busWrite ag p v = .stop t) :
    SameEngine s t := by
  obtain ⟨-, rfl⟩ | ⟨q, a, -, -, -, rfl⟩ | ⟨q, -, -, -, rfl⟩ := State.busWrite_stop h <;>
    exact ⟨rfl, rfl, rfl, rfl, rfl, rfl⟩

/-! ## The form of a statement -/

/-- Statement `n` of `i` uses byte `b` of image block `k` (R218, R220, R222). -/
def UsesImage (i : Instr) (n : Nat) (s : State) (k b : Nat) : Prop :=
  s.regs.b = some b ∧ ((i = .compareBlock k ∧ n = 2) ∨
    (s.regs.i = some k ∧ ((i = .flash ∧ n = 14) ∨ (i = .verify ∧ n = 4))))

theorem UsesImage.compareBlock {k b : Nat} (hb : s.regs.b = some b) : UsesImage (.compareBlock k) 2 s k b :=
  ⟨hb, .inl ⟨rfl, rfl⟩⟩

theorem UsesImage.flash {k b : Nat} (hb : s.regs.b = some b) (hi : s.regs.i = some k) : UsesImage .flash 14 s k b :=
  ⟨hb, .inr ⟨hi, .inl ⟨rfl, rfl⟩⟩⟩

theorem UsesImage.verify {k b : Nat} (hb : s.regs.b = some b) (hi : s.regs.i = some k) : UsesImage .verify 4 s k b :=
  ⟨hb, .inr ⟨hi, .inr ⟨rfl, rfl⟩⟩⟩

/-- The form of statement `n` of `i` at `s`: it looks at the registers of a list in order, then perhaps at an image
byte, then makes at most one cycle, and then writes what `i` writes (R38, R262). -/
inductive Shape (i : Instr) (n : Nat) (s : State) : List RegName → Out → Prop
  | done {t : State} (h : Writes i s t) (hf : t.faults = s.faults) : Shape i n s [] (.next t)
  | need {α : Type} {value : Option α} {name : RegName} {names : List RegName} {k : α → Out}
      (hl : s.lacks name = value.isNone) (hk : ∀ x, value = some x → Shape i n s names (k x)) :
      Shape i n s (name :: names) (need value name s k)
  | image {k b : Nat} {f : Byte → Out} (hu : UsesImage i n s k b) (hk : ∀ v, Shape i n s [] (f v)) :
      Shape i n s [] (needImage k b s f)
  | read {p : Nat} {k : Byte → State → State} (hk : ∀ v u, Writes i u (k v u))
      (hf : ∀ v u, (k v u).faults = u.faults) : Shape i n s [] (engRead p s k)
  | write {p : Nat} {v : Byte} {k : State → State} (hk : ∀ u, Writes i u (k u))
      (hf : ∀ u, (k u).faults = u.faults) : Shape i n s [] (engWrite p v s k)
  | firstWrite {p : Nat} {v : Byte} {k : State → State} (hk : ∀ u, Writes i u (k u))
      (hf : ∀ u, (k u).faults = u.faults) : Shape i n s [] (engFirstWrite p v s k)
  | noStatement (h : i.length ≤ n) : Shape i n s [] (.fault .noSuchStatement)
  | unreachable {c : Dcw} (hc : i.cycles[n]? = some c) (ha : s.cfg.hostAddr? c.a = none) :
      Shape i n s [] (.refused (.unreachableDeviceAddress c.a))

section Forms

variable {n : Nat} {α : Type}

/-- The registers that a form finds are compared with those of `operandRegs` last. -/
theorem Shape.of_operandRegs {names : List RegName} {o : Out} (h : Shape i n s names o)
    (hr : operandRegs i n = names) : Shape i n s (operandRegs i n) o := hr ▸ h

/-- An operand that may be a register which can be unset. -/
theorem Shape.operandThen {o : Operand α} {reg : Option α} {name : RegName} {names : List RegName} {k : α → Out}
    (hl : s.lacks name = reg.isNone) (hk : ∀ x, Shape i n s names (k x)) :
    Shape i n s (operandName o name ++ names) (Machine.need (operand? o reg) name s k) := by
  cases o with
  | reg => exact .need hl fun x _ => hk x
  | imm v => exact hk v

theorem Shape.operand {o : Operand α} {reg : Option α} {name : RegName} {k : α → Out}
    (hl : s.lacks name = reg.isNone) (hk : ∀ x, Shape i n s [] (k x)) :
    Shape i n s (operandName o name) (Machine.need (operand? o reg) name s k) :=
  List.append_nil (operandName o name) ▸ Shape.operandThen hl hk

/-- An operand that may be D or L, which always hold a value (R35). -/
theorem Shape.input {o : Operand α} {d : α} {name : RegName} {names : List RegName} {k : α → Out}
    (hk : ∀ x, Shape i n s names (k x)) :
    Shape i n s names (Machine.need (operand? o (some d)) name s k) := by
  cases o with
  | reg => exact hk d
  | imm v => exact hk v

/-- A cycle of a device command (R92). -/
theorem Shape.issueCycle (hn : s.stmt = n) (hl : i.length ≤ i.cycles.length) (hr : operandRegs i n = []) :
    Shape i n s (operandRegs i n) (Machine.issueCycle i s) := by
  have hafter : ∀ u : State, SameEngine u (if n + 1 < i.cycles.length then u.goto (n + 1) else u.ret) ∧
      (if n + 1 < i.cycles.length then u.goto (n + 1) else u.ret).faults = u.faults := by
    intro u
    split <;> exact ⟨⟨rfl, rfl, rfl, rfl, rfl, rfl⟩, rfl⟩
  rw [hr, Machine.issueCycle, hn]
  split
  next hc => exact .noStatement (hl.trans (List.getElem?_eq_none_iff.mp hc))
  next c hc =>
    split
    next ha => exact .unreachable hc ha
    next p _ =>
      dsimp only
      split
      · exact .write (fun u => (hafter u).1.writes) fun u => (hafter u).2
      · exact .read (fun _ u => (hafter u).1.writes) fun _ u => (hafter u).2

/-- A test of ID_DECODE's chain (R183). -/
theorem Shape.idTest {V W : Operand Byte} {p : Part} {yes no : Nat} :
    Shape i n s (operandName V .VID ++ operandName W .DID) (Machine.idTest V W p yes no s) :=
  .operandThen rfl fun _ => .operand rfl fun _ => .done (SameEngine.writes ⟨rfl, rfl, rfl, rfl, rfl, rfl⟩) rfl

theorem Shape.keyTaken {x : Option Byte} {k : Nat} :
    Shape .run n s [] (.next ((s.keyTaken.setRegs fun g => { g with ANS := x }).goto k)) :=
  .done (s.keyTaken_sameEngine.andThen ⟨⟨rfl, rfl, rfl, rfl, rfl, rfl⟩, .inl rfl⟩) s.keyTaken_faults

end Forms

/-- Every statement of every instruction has the form, and the registers it looks at are those of `operandRegs`. An
arm's form is built from its outside in, which finds the list of registers; D and L are no part of it. -/
theorem exec_shape (i : Instr) {n : Nat} (hn : s.stmt = n) : Shape i n s (operandRegs i n) (exec i s) := by
  cases i with
  | readArray | swidEntry | swidRead | swidExit | sectorErase | byteProgram | statusRead =>
    exact .issueCycle hn (le_of_eq rfl) rfl
  | poll | cal | waitProgram | waitErase | csEnter | csExit | detect | idDecode | eraseSector | programByte | plan
  | overlap | compareBlock | flash | verify | run | halt =>
    dsimp only [exec]
    first
      | unfold execPoll | unfold execCal | unfold execWaitProgram | unfold execWaitErase | unfold execCsEnter
      | unfold execCsExit | unfold execDetect | unfold execIdDecode idSet | unfold execEraseSector
      | unfold execProgramByte | unfold execPlan | unfold execOverlap | unfold execCompareBlock
      | unfold execFlash | unfold execVerify | unfold execRun | unfold execHalt
    rw [hn]
    split
    all_goals
      apply Shape.of_operandRegs
      repeat' first
        | intro _
        | with_reducible apply Shape.input
        | with_reducible apply Shape.operand
        | with_reducible apply Shape.need
        | with_reducible apply Shape.idTest
        | with_reducible apply Shape.image
        | with_reducible apply Shape.read
        | with_reducible apply Shape.write
        | with_reducible apply Shape.firstWrite
        | with_reducible apply Shape.keyTaken
        | with_reducible apply Shape.done
        | with_reducible apply Shape.noStatement
        | rfl
        | exact ⟨⟨rfl, rfl, rfl, rfl, rfl, rfl⟩, .inl rfl⟩
        | exact ⟨⟨rfl, rfl, rfl, rfl, rfl, rfl⟩, .inr ⟨_, rfl⟩⟩
        | with_reducible apply UsesImage.compareBlock
        | with_reducible apply UsesImage.flash
        | with_reducible apply UsesImage.verify
        | assumption
        | with_reducible apply operandRegs_of_length_le
        | (simp only [Instr.length, imp_false] at *; omega)

/-! ## What follows from the form -/

section Consequences

variable {n : Nat} {names : List RegName} {o : Out}

theorem engRead_answers (p : Nat) (s : State) (k : Byte → State → State) : ∃ t, engRead p s k = .next t := by
  unfold engRead
  split <;> exact ⟨_, rfl⟩

theorem engWrite_answers (p : Nat) (v : Byte) (s : State) (k : State → State) :
    ∃ t, engWrite p v s k = .next t := by
  unfold engWrite
  split <;> exact ⟨_, rfl⟩

/-- A statement answers, unless the procedure, the image or DEV_MAP lacks what it needs. -/
theorem Shape.answers (h : Shape i n s names o) (hn : n < i.length)
    (hhost : ∀ c, i.cycles[n]? = some c → s.cfg.hostAddr? c.a ≠ none)
    (himg : ∀ k b, UsesImage i n s k b → s.imgByte? k b ≠ none) : ∃ t, o = .next t := by
  induction h with
  | done => exact ⟨_, rfl⟩
  | @need _ value _ _ _ _ _ ih =>
    cases value with
    | none => exact ⟨_, rfl⟩
    | some x => exact ih x rfl
  | image hu _ ih =>
    obtain ⟨v, hv⟩ := Option.ne_none_iff_exists'.mp (himg _ _ hu)
    simpa only [needImage, hv] using ih v
  | read => exact engRead_answers _ _ _
  | write => exact engWrite_answers _ _ _ _
  | firstWrite =>
    unfold engFirstWrite
    split
    · exact ⟨_, rfl⟩
    · exact engWrite_answers _ _ _ _
  | noStatement hl => omega
  | unreachable hc ha => exact absurd ha (hhost _ hc)

theorem State.raise_writes (i : Instr) (s : State) (f : FaultKind) : Writes i s (s.raise f) :=
  SameEngine.writes ⟨rfl, rfl, rfl, rfl, rfl, rfl⟩

/-- A statement changes nothing of the engine but what its procedure writes; a fault changes none of it (R263). -/
theorem Shape.writes (h : Shape i n s names o) : NextAll (Writes i s) o := by
  have hread {p t} (h : s.busRead .eng p = .stop t) : Writes i s t := (State.busRead_stop_sameEngine h).writes
  have hwrite {p v t} (h : s.busWrite .eng p v = .stop t) : Writes i s t := (State.busWrite_stop_sameEngine h).writes
  induction h with
  | done h => exact (nextAll_next _).2 h
  | need _ _ ih => exact nextAll_need (s.raise_writes i _) ih
  | image _ _ ih => exact nextAll_needImage fun v _ => ih v
  | read hk =>
    exact nextAll_engRead (fun v u hb => (State.busRead_ok hb).1.sameEngine.andThen (hk v u)) fun _ => hread
  | write hk =>
    exact nextAll_engWrite (fun x u hb => (State.busWrite_ok hb).1.sameEngine.andThen (hk u)) fun _ => hwrite
  | firstWrite hk =>
    exact nextAll_engFirstWrite (s.raise_writes i _)
      (fun x u hb => (State.busWrite_ok hb).1.sameEngine.andThen (hk u)) fun _ => hwrite
  | noStatement => exact (nextAll_fault _).2 trivial
  | unreachable => exact (nextAll_refused _).2 trivial

theorem exec_writes (h : exec i s = .next t) : Writes i s t := (exec_shape i rfl).writes t h

/-- The first unset register of the list is recorded (R262). -/
theorem Shape.unset (h : Shape i n s names o) {name : RegName} (hname : names.find? s.lacks = some name) :
    o = .next (s.raise (.unsetRegister name)) := by
  induction h with
  | @need _ value name' _ _ hl _ ih =>
    rw [List.find?_cons, hl] at hname
    cases value with
    | none => rw [← Option.some.inj hname, need_none]
    | some x => exact ih x rfl hname
  | done | image | read | write | firstWrite | noStatement | unreachable => simp at hname

/-- No unset register is recorded. -/
def NoneUnset (t : State) : Prop := ∀ name, .unsetRegister name ∉ t.faults

theorem State.raise_noneUnset {f : FaultKind} (h : NoneUnset s) (hf : ∀ name, f ≠ .unsetRegister name) :
    NoneUnset (s.raise f) := fun name =>
  mt (State.mem_raise_of_ne (hf name).symm).mp (h name)

theorem State.busRead_stop_noneUnset {ag : Agent} {p : Nat} (h : s.busRead ag p = .stop t) (hs : NoneUnset s) :
    NoneUnset t := by
  obtain ⟨-, rfl⟩ | ⟨q, a, -, -, -, rfl⟩ := State.busRead_stop h <;> exact State.raise_noneUnset hs nofun

theorem State.busWrite_stop_noneUnset {ag : Agent} {p : Nat} {v : Byte} (h : s.busWrite ag p v = .stop t)
    (hs : NoneUnset s) : NoneUnset t := by
  obtain ⟨-, rfl⟩ | ⟨q, a, -, -, -, rfl⟩ | ⟨q, -, -, -, rfl⟩ := State.busWrite_stop h <;>
    exact State.raise_noneUnset hs nofun

/-- With every register of the list set, no unset register is recorded (R262). -/
theorem Shape.noneUnset (h : Shape i n s names o) (hnames : names.find? s.lacks = none) (hs : NoneUnset s) :
    NextAll NoneUnset o := by
  have hok {u v : State} (hv : v.faults = u.faults) (hu : u.faults = s.faults) : NoneUnset v := by
    rwa [NoneUnset, hv, hu]
  have hread {p t} (h : s.busRead .eng p = .stop t) : NoneUnset t := State.busRead_stop_noneUnset h hs
  have hwrite {p v t} (h : s.busWrite .eng p v = .stop t) : NoneUnset t := State.busWrite_stop_noneUnset h hs
  induction h with
  | done _ hf => exact (nextAll_next _).2 (hok hf rfl)
  | @need _ value _ _ _ hl _ ih =>
    rw [List.find?_cons, hl] at hnames
    cases value with
    | none => simp at hnames
    | some x => exact ih x rfl hnames
  | image _ _ ih => exact nextAll_needImage fun v _ => ih v rfl
  | read _ hf => exact nextAll_engRead (fun v u hb => hok (hf v u) (State.busRead_ok hb).2.1) fun _ => hread
  | write _ hf => exact nextAll_engWrite (fun x u hb => hok (hf u) (State.busWrite_ok hb).2.1) fun _ => hwrite
  | firstWrite _ hf =>
    exact nextAll_engFirstWrite (State.raise_noneUnset hs nofun)
      (fun x u hb => hok (hf u) (State.busWrite_ok hb).2.1) fun _ => hwrite
  | noStatement => exact (nextAll_fault _).2 trivial
  | unreachable => exact (nextAll_refused _).2 trivial

end Consequences

/-- No statement writes the tick byte (R43). -/
theorem Effect.tick (h : Effect s t) : t.tick = s.tick := by
  cases h with
  | engine h => exact h.tick
  | raised => rfl
  | read p v u hb h => exact h.tick.trans (State.busRead_ok hb).1.tick
  | readStop p hb => obtain ⟨-, rfl⟩ | ⟨q, a, -, -, -, rfl⟩ := State.busRead_stop hb <;> rfl
  | write p v x u hb h => exact h.tick.trans (State.busWrite_ok hb).1.tick
  | writeStop p v hb =>
    obtain ⟨-, rfl⟩ | ⟨q, a, -, -, -, rfl⟩ | ⟨q, -, -, -, rfl⟩ := State.busWrite_stop hb <;> rfl

/-! ## The obligations on statements -/

/-- Settles O7: the form of the statement answers, since its index, its image byte and its host address exist. -/
theorem everyStatementAnswers : Obligations.EveryStatementAnswers := by
  intro i s hstmt hhost himg
  refine (exec_shape i rfl).answers hstmt hhost ?_
  rintro k b ⟨hb, huse⟩
  exact himg k b hb huse

/-- Settles O19: the registers that a procedure does not write, procedure by procedure. -/
theorem registerWriters : Obligations.RegisterWriters := by
  intro i s t h
  obtain ⟨u, hregs⟩ : ∃ u, t.regs = (i.written s u).regs := ⟨t, (exec_writes h).own.regs⟩
  rw [hregs]
  cases i <;> simp [Instr.written]

/-- Settles O20: the output that a procedure does not write, and what no statement writes. -/
theorem outputWriters : Obligations.OutputWriters := by
  intro i s t h
  have hsay := (exec_writes h).msg
  obtain ⟨u, -, hIF, hmsg, hexit, hhalted, herr⟩ : ∃ u, SameEngine (i.written s u) t :=
    ⟨t, (exec_writes h).own⟩
  have hcore := exec_coreStep h
  obtain ⟨hcfg, hD, himg, horig⟩ := hcore.sameInputs
  refine ⟨?_, ?_, ?_, ?_, hsay, hcore.faults_subset, hD, himg, horig, hcfg, (exec_effect h).tick⟩
  all_goals
    simp only [hIF, hmsg, hexit, hhalted, herr]
    cases i <;> simp [Instr.written]

/-- Settles O57: the first unset register of the statement's list ends it, and no later part of it records one. -/
theorem unsetRegisterFaults : Obligations.UnsetRegisterFaults := by
  intro i s hfaults
  have hshape := exec_shape i (s := s) rfl
  refine ⟨fun name hname => ?_, fun hnone t name h => ?_⟩
  · rw [hshape.unset hname, State.raise_of_nil hfaults]
  · exact hshape.noneUnset hnone (by simp [NoneUnset, hfaults]) t h name

end Machine

end Sys2Proof
end

section
/-! PROOFS. The cycles of device commands, launch and reset, and HALT. -/

namespace Sys2Proof

namespace Machine

variable {i : Instr} {s t : State}

/-! ## One cycle of a device command -/

/-- The frame on top after cycle `k` of `i` is accepted: at the next cycle, or gone after the last (R38). -/
def State.afterCycle (u : State) (i : Instr) (k : Nat) : State :=
  if k + 1 < i.cycles.length then u.goto (k + 1) else u.ret

/-- `s` with another mode, history and count of draws, and the same array. -/
def State.withCycle (s : State) (m : DevMode) (hist : List BusEvent) (draws : Nat) : State :=
  { s with dev := { s.dev with mode := m }, hist := hist, draws := draws }

theorem exec_of_isCommand (h : i.isCommand = true) : exec i s = issueCycle i s := by
  cases i with
  | readArray | swidEntry | swidRead | swidExit | sectorErase | byteProgram | statusRead => rfl
  | poll | cal | waitProgram | waitErase | csEnter | csExit | detect | idDecode | eraseSector | programByte | plan
  | overlap | compareBlock | flash | verify | run | halt => cases h

/-- A cycle of the device that is a write: accepted, or a violation (R122, R139). -/
theorem engWrite_device {q : PhysAddr} {a : DevAddr} {v : Byte} {k : State → State} (ha : s.cfg.devAddr? q = some a)
    (h : engWrite q.toNat v s k = .next t) :
    (∃ m hist draws, Dev.writeMode s.cfg s.dev.mode a v = some m ∧ t = k (s.withCycle m hist draws)) ∨
      (Dev.writeMode s.cfg s.dev.mode a v = none ∧ ∃ m hist draws, t = (s.withCycle m hist draws).violate) := by
  rw [engWrite, State.busWrite_device (toPhys?_toNat q) ha] at h
  cases hm : Dev.writeMode s.cfg s.dev.mode a v with
  | some m =>
    rw [State.devWrite_accepted hm] at h
    cases h
    exact .inl ⟨m, _, s.draws, rfl, rfl⟩
  | none =>
    rw [State.devWrite_unaccepted hm] at h
    cases h
    exact .inr ⟨rfl, s.dev.mode, _, s.draws, rfl⟩

/-- A cycle of the device that is a read: accepted, or a violation (R122, R139). -/
theorem engRead_device {q : PhysAddr} {a : DevAddr} {k : State → State} (ha : s.cfg.devAddr? q = some a)
    (h : engRead q.toNat s (fun _ => k) = .next t) :
    (s.readAnswer a ≠ .unaccepted ∧ ∃ m hist draws, t = k (s.withCycle m hist draws)) ∨
      (s.readAnswer a = .unaccepted ∧ ∃ m hist draws, t = (s.withCycle m hist draws).violate) := by
  rw [engRead, State.busRead_device (toPhys?_toNat q) ha, State.devRead] at h
  cases hr : s.readAnswer a with
  | byte v =>
    rw [hr] at h
    cases h
    exact .inl ⟨nofun, s.dev.mode, _, s.draws, rfl⟩
  | draw m =>
    rw [hr] at h
    cases h
    exact .inl ⟨nofun, m, _, s.draws + 1, rfl⟩
  | unaccepted =>
    rw [hr] at h
    cases h
    exact .inr ⟨rfl, s.dev.mode, _, s.draws + 1, rfl⟩

/-- The statement of a device command is one accepted cycle, or one violation (R95, R139). -/
theorem issueCycle_cases (h : issueCycle i s = .next t) :
    ∃ c, i.cycles[s.stmt]? = some c ∧ ∃ m hist draws,
      (s.accepts c ∧ t = (s.withCycle m hist draws).afterCycle i s.stmt) ∨
        (¬ s.accepts c ∧ t = (s.withCycle m hist draws).violate) := by
  unfold issueCycle at h
  split at h
  · cases h
  next c hc =>
    refine ⟨c, hc, ?_⟩
    split at h
    · cases h
    next p hp =>
      have ha := Config.devAddr?_of_hostAddr? hp
      dsimp only at h
      split at h
      next hwr =>
        rcases engWrite_device ha h with ⟨m, hist, draws, hm, rfl⟩ | ⟨hm, m, hist, draws, rfl⟩
        · exact ⟨m, hist, draws, .inl ⟨by simp [State.accepts, hwr, hm], rfl⟩⟩
        · exact ⟨m, hist, draws, .inr ⟨by simp [State.accepts, hwr, hm], rfl⟩⟩
      next hwr =>
        rcases engRead_device ha h with ⟨hr, m, hist, draws, rfl⟩ | ⟨hr, m, hist, draws, rfl⟩
        · exact ⟨m, hist, draws, .inl ⟨by simp [State.accepts, hwr, hr], rfl⟩⟩
        · exact ⟨m, hist, draws, .inr ⟨by simp [State.accepts, hwr, hr], rfl⟩⟩

/-- Settles O21: an accepted cycle moves or pops the command's frame, a violation leaves EPC. -/
theorem deviceCommandFrame : Obligations.DeviceCommandFrame := by
  intro i s t hi h
  rw [exec_of_isCommand hi] at h
  obtain ⟨c, hc, m, hist, draws, ⟨haccepts, rfl⟩ | ⟨hrefuses, rfl⟩⟩ := issueCycle_cases h
  · refine ⟨?_, c, hc, fun _ => ⟨?_, fun f rest he => ?_⟩, fun hno => absurd haccepts hno⟩
    · unfold State.afterCycle
      split <;> rfl
    · unfold State.afterCycle
      split <;> rfl
    · have he' : (s.withCycle m hist draws).epc = f :: rest := he
      rw [State.afterCycle, State.stmt_of_epc he, apply_ite State.epc, State.goto_epc_of he', State.ret_epc, he']
      rfl
  · exact ⟨rfl, c, hc, fun hyes => absurd hyes hrefuses, fun _ => ⟨State.mem_raise _ _, rfl⟩⟩

/-! ## Launch and reset -/

/-- Settles O8: the launch writes every field out, and a power cycle keeps the bytes that no operation was at. -/
theorem launchState : Obligations.LaunchState := by
  intro cfg array0 D img orig tick
  refine ⟨rfl, fun hc => ?_, rfl, rfl, rfl, rfl, rfl, rfl, rfl, rfl, rfl, rfl, rfl, rfl, rfl, rfl, rfl, rfl, rfl,
    fun hc => ?_, fun hc => ⟨fun a => ?_, fun p => rfl⟩, fun last => ⟨rfl, fun hc a hsector hbyte => ?_⟩⟩
  · simp only [State.launch, hc]
  · exact ⟨by simp only [Config.vendorId, hc]; rfl, by simp only [Config.deviceId, hc]⟩
  · simp only [State.arrayByte, State.launch, hc]
    rfl
  · rw [← State.read_persisted hsector hbyte]
    simp only [State.arrayByte, State.nextRun, State.launch, hc]

/-- One whole block of the file's bytes meets the image contract (R211). -/
theorem imageOk_oneBlock {blk : List Byte} (h : blk.length = SECTOR) : imageOk [blk] SECTOR none := by
  refine ⟨⟨by simp, by simp, by simpa using h⟩, by decide, ?_, rfl⟩
  simp [List.drop_of_length_le h.le]

/-- Settles O9: no field of the reset state is in the middle of anything. -/
theorem resetMeetsInvariants : Obligations.ResetMeetsInvariants := by
  have himage : imageOk State.reset.img State.reset.orig none := imageOk_oneBlock List.length_replicate
  refine ⟨rfl, ⟨⟨rfl, rfl⟩, ⟨rfl, rfl⟩, rfl, ⟨by decide, himage⟩, by decide, ⟨rfl, rfl, rfl, rfl⟩,
    rfl, rfl, rfl, rfl, fun _ => rfl⟩, ?_, ?_, epcWf_singleton (Instr.length_pos _), fun _ => ⟨rfl, rfl⟩⟩
  · exact ⟨by decide, Memory.nil_wf, Memory.nil_wf, trivial⟩
  · exact ⟨by decide, by decide, List.nodup_nil⟩

/-! ## HALT -/

theorem engStep_of_ended (h : s.ended = true) : engStep s = .next s := by
  simp [engStep, h]

/-- Settles O54: HALT's one statement, and the engine's step once the run has ended. -/
theorem haltStopsTheEngine : Obligations.HaltStopsTheEngine := by
  refine ⟨fun s rest he => ?_, fun s hfaults hmove hend => ?_⟩
  · simp only [exec, execHalt, State.stmt_of_epc he]
  · have hended : s.moveTaken.ended = true := by
      rw [State.moveTaken_ended]
      simpa [State.ended, Option.isSome_iff_ne_none] using hend
    calc step s = engStep s.moveTaken := by rw [step_of_faults_nil hfaults, hmove]; rfl
      _ = .next s.moveTaken := engStep_of_ended hended

end Machine

end Sys2Proof
end

section
/-! PROOFS. Memory: what one step appends to HIST (R66, R67), where a statement stores (R65, R70), the offsets that
legal segments reach (R63, R74), and accesses above 1 MiB (R62). -/

namespace Sys2Proof

/-! ## Offsets that DEV_MAP keeps -/

/-- M1 of R63: a block and the sector that it reaches agree in their low three bits. -/
theorem Config.sectorOf?_mod {c : Config} (h : c.wf = true) {block : Nat} {sec : Sector}
    (hs : c.sectorOf? block = some sec) : sec.toNat % 8 = block % 8 := by
  simp only [Config.sectorOf?, Option.map_eq_some_iff] at hs
  obtain ⟨r, hfind, rfl⟩ := hs
  simp only [Config.wf, Bool.and_eq_true, List.all_eq_true] at h
  obtain ⟨⟨⟨hlow, -⟩, -⟩, -⟩ := h.2 r (List.mem_of_find?_eq_some hfind)
  have hin := List.find?_some hfind
  simp only [Bool.and_eq_true, decide_eq_true_eq] at hin
  simp only [DevRegion.lowBitsPass, Bool.or_eq_true, decide_eq_true_eq] at hlow
  rw [BitVec.toNat_ofNat]
  omega

theorem DevAddr.toNat_boff (a : DevAddr) : (DevAddr.boff a).toNat = a.toNat % 0x1000 := by
  simp [DevAddr.boff, BitVec.extractLsb'_toNat]

theorem DevAddr.toNat_offset (a : DevAddr) : (DevAddr.offset a).toNat = a.toNat % 0x8000 := by
  simp [DevAddr.offset, BitVec.extractLsb'_toNat]

/-- M2 of R63: the byte offset in a 4 KiB block passes through. -/
theorem Config.boff_of_devAddr? {c : Config} {q : PhysAddr} {a : DevAddr} (h : c.devAddr? q = some a) :
    (DevAddr.boff a).toNat = q.toNat % 0x1000 := by
  simp only [Config.devAddr?, Option.map_eq_some_iff] at h
  obtain ⟨sec, -, rfl⟩ := h
  simp [BitVec.extractLsb'_toNat]

/-- M1 and M2 of R63: a legal DEV_MAP passes the low 15 bits of an address through. -/
theorem Config.offset_of_devAddr? {c : Config} (hwf : c.wf = true) {q : PhysAddr} {a : DevAddr}
    (h : c.devAddr? q = some a) : (DevAddr.offset a).toNat = q.toNat % 0x8000 := by
  have hsector := Config.sectorOf?_mod hwf (Config.sector_of_devAddr? h)
  have hboff := Config.boff_of_devAddr? h
  rw [DevAddr.toNat_sector] at hsector
  rw [DevAddr.toNat_boff] at hboff
  rw [DevAddr.toNat_offset]
  omega

/-- Addresses of one 4 KiB block reach the device together (M2 of R63). -/
theorem Config.devAddr?_of_same_block {c : Config} {p q : PhysAddr} {a : DevAddr} (h : c.devAddr? p = some a)
    (hpq : p.toNat / 0x1000 = q.toNat / 0x1000) : ∃ b, c.devAddr? q = some b := by
  rw [Config.devAddr?, ← hpq, Config.sector_of_devAddr? h]
  exact ⟨_, rfl⟩

namespace Machine

variable {s t u : State} {i : Instr} {p : Nat}

theorem toNat_of_toPhys? {q : PhysAddr} (h : toPhys? p = some q) : q.toNat = p := by
  obtain ⟨hp, rfl⟩ := toPhys?_some h
  exact Nat.mod_eq_of_lt hp

/-- A window at a multiple of 32 KiB passes an offset below 32 KiB to the device as its command offset. -/
theorem State.offset_of_reaches (hwf : s.cfg.wf = true) {S : Seg} (hS : S.toNat % 0x800 = 0) {o : BitVec 15}
    (h : ∃ a, s.reaches (physical S o.toNat) a) : ∃ a, s.reaches (physical S o.toNat) a ∧ DevAddr.offset a = o := by
  obtain ⟨a, q, hq, ha⟩ := h
  refine ⟨a, ⟨q, hq, ha⟩, BitVec.eq_of_toNat_eq ?_⟩
  have ho := o.isLt
  rw [Config.offset_of_devAddr? hwf ha, toNat_of_toPhys? hq, physical]
  omega

/-- At a multiple of 4 KiB, a byte less than 4 KiB behind `D:0` reaches the device with it, at that offset in the
sector. -/
theorem State.boff_of_reaches {D : Seg} (hD : D.toNat % 0x100 = 0) (h : ∃ a, s.reaches (physical D 0) a)
    {o : BitVec 12} : ∃ a, s.reaches (physical D o.toNat) a ∧ DevAddr.boff a = o := by
  obtain ⟨a, q, hq, ha⟩ := h
  have ho := o.isLt
  have hqD := toNat_of_toPhys? hq
  simp only [physical] at hqD ⊢
  have hlt : D.toNat * 16 + o.toNat < 0x100000 := by omega
  have hp := toPhys?_of_lt hlt
  have hpD := toNat_of_toPhys? hp
  obtain ⟨b, hb⟩ := Config.devAddr?_of_same_block ha (q := BitVec.ofNat 20 (D.toNat * 16 + o.toNat)) (by omega)
  refine ⟨b, ⟨_, hp, hb⟩, BitVec.eq_of_toNat_eq ?_⟩
  rw [Config.boff_of_devAddr? hb, hpD]
  omega

/-- Settles O26: M1 passes the command offsets of an aligned window through, M2 the first bytes of a sector. -/
theorem alignedSegmentsReachCommandOffsets : Obligations.AlignedSegmentsReachCommandOffsets := by
  intro s hwf
  refine ⟨fun S hS h1 h2 => ⟨State.offset_of_reaches hwf hS h1, State.offset_of_reaches hwf hS h2⟩, fun D hD h => ?_⟩
  simp only [legalD, Bool.and_eq_true, beq_iff_eq] at hD
  exact ⟨State.boff_of_reaches hD.2 h (o := 0), State.boff_of_reaches hD.2 h (o := 1)⟩

/-- Settles O55: no 20-bit address stands for such an access. -/
theorem accessAboveWindowFaults : Obligations.AccessAboveWindowFaults := by
  intro s ag p v hp hfaults
  rw [State.busRead, State.busWrite, toPhys?_of_le hp, State.raise_of_nil hfaults]
  exact ⟨rfl, rfl⟩

/-! ## What a cycle, a statement and a step append to HIST -/

/-- HIST is as before, or longer by one entry, of which `P` holds. -/
def Appends (P : BusEvent → Prop) (s t : State) : Prop := t.hist = s.hist ∨ ∃ e, t.hist = s.hist ++ [e] ∧ P e

theorem Appends.congr {P : BusEvent → Prop} {s' t' : State} (h : Appends P s t) (hs : s'.hist = s.hist)
    (ht : t'.hist = t.hist) : Appends P s' t' := by
  rwa [Appends, hs, ht]

theorem Appends.any {P : BusEvent → Prop} (h : Appends P s t) : Appends (fun _ => True) s t :=
  h.imp_right fun ⟨e, he, _⟩ => ⟨e, he, trivial⟩

/-- A read appends its own entry, unless it is not performed (R62, R66). -/
theorem State.busRead_appends {ag : Agent} (h : (∃ v, s.busRead ag p = .ok v t) ∨ s.busRead ag p = .stop t) :
    Appends (·.kind = .R) s t := by
  rcases h with ⟨v, h⟩ | h
  · obtain ⟨-, -, -, -, q, -, hhist, -⟩ := State.busRead_ok h
    exact .inr ⟨_, hhist, rfl⟩
  · obtain ⟨-, rfl⟩ | ⟨q, a, -, -, -, rfl⟩ := State.busRead_stop h
    · exact .inl rfl
    · exact .inr ⟨_, rfl, rfl⟩

/-- A write appends its own entry, unless it is not performed (R62, R65, R66). -/
theorem State.busWrite_appends {ag : Agent} {v : Byte}
    (h : (∃ x, s.busWrite ag p v = .ok x t) ∨ s.busWrite ag p v = .stop t) : Appends (·.kind = .W) s t := by
  rcases h with ⟨x, h⟩ | h
  · obtain ⟨-, -, -, -, q, -, hhist, -⟩ := State.busWrite_ok h
    exact .inr ⟨_, hhist, rfl⟩
  · obtain ⟨-, rfl⟩ | ⟨q, a, -, -, -, rfl⟩ | ⟨q, -, -, -, rfl⟩ := State.busWrite_stop h
    · exact .inl rfl
    · exact .inr ⟨_, rfl, rfl⟩
    · exact .inl rfl

theorem Effect.appends (h : Effect s t) : Appends (fun _ => True) s t := by
  cases h with
  | engine h => exact .inl h.hist
  | raised => exact .inl rfl
  | read p v u hb h => exact ((State.busRead_appends (.inl ⟨v, hb⟩)).any).congr rfl h.hist
  | readStop p hb => exact (State.busRead_appends (.inr hb)).any
  | write p v x u hb h => exact ((State.busWrite_appends (.inl ⟨x, hb⟩)).any).congr rfl h.hist
  | writeStop p v hb => exact (State.busWrite_appends (.inr hb)).any

theorem EngCase.appends (h : EngCase s t) : Appends (fun _ => True) s t := by
  cases h with
  | idle h => exact .inl (congrArg State.hist h)
  | frame f rest he h => exact (exec_effect h).appends
  | fetch i rest he hd hw h => exact (exec_effect h).appends
  | word w ws he hq h => exact (issueWord_effect h).appends

theorem State.complete_appends (s : State) : Appends (fun _ => True) s s.complete := by
  unfold State.complete
  split
  · exact .inr ⟨_, rfl, trivial⟩
  · exact .inr ⟨_, rfl, trivial⟩
  all_goals exact .inl rfl

theorem isrStep_appends {p : PhysAddr} (h : isrStep p s = .next t) : Appends (fun _ => True) s t := by
  obtain ⟨-, rfl⟩ | ⟨-, h⟩ := isrStep_cases h
  · exact .inl rfl
  · exact (State.busRead_appends h).any

theorem step_appends (h : step s = .next t) : Appends (fun _ => True) s t := by
  have hmove := s.moveTaken_hist.symm
  cases (step_cases h).2 with
  | eng _ h => exact h.appends.congr hmove rfl
  | dev _ h => exact h ▸ s.moveTaken.complete_appends.congr hmove rfl
  | tick _ h => exact h ▸ .inl hmove.symm
  | isr p _ h => exact (isrStep_appends h).congr hmove rfl

/-- Settles O16: every agent's step is engine work or one cycle or one completion. -/
theorem historyIsOnlyAppendedTo : Obligations.HistoryIsOnlyAppendedTo := fun _ _ h =>
  (step_appends h).imp_right fun ⟨e, he, _⟩ => ⟨e, he⟩

/-! ## Where a statement stores -/

/-- From `s` to `t` no RAM byte changes but the one at `a`, and without an `a` nothing is written to the bus. -/
structure Stores (a : Option Nat) (s t : State) : Prop where
  ram : ∀ q : PhysAddr, a ≠ some q.toNat → t.ramByte q = s.ramByte q
  bus : a = none → Appends (·.kind = .R) s t

variable {a : Option Nat} {α : Type}

theorem Stores.of_engineOnly (h : EngineOnly s t) : Stores a s t :=
  ⟨fun q _ => by rw [State.ramByte, h.ram]; rfl, fun _ => .inl h.hist⟩

theorem Stores.andThen (h : Stores a s u) (h' : EngineOnly u t) : Stores a s t :=
  ⟨fun q hq => by rw [← h.ram q hq, State.ramByte, h'.ram]; rfl, fun ha => (h.bus ha).congr rfl h'.hist⟩

theorem State.raise_stores (s : State) (f : FaultKind) : Stores a s (s.raise f) := ⟨fun _ _ => rfl, fun _ => .inl rfl⟩

/-- A read stores nothing (R67). -/
theorem State.busRead_stores {ag : Agent} (h : (∃ v, s.busRead ag p = .ok v t) ∨ s.busRead ag p = .stop t) :
    Stores a s t := by
  refine ⟨fun q _ => ?_, fun _ => State.busRead_appends h⟩
  rcases h with ⟨v, h⟩ | h
  · obtain ⟨-, -, hram, -⟩ := State.busRead_ok h
    rw [State.ramByte, hram]; rfl
  · obtain ⟨-, rfl⟩ | ⟨_, _, -, -, -, rfl⟩ := State.busRead_stop h <;> rfl

/-- A write stores at its own address at most (R65, R70). -/
theorem State.busWrite_stores {ag : Agent} {v : Byte}
    (h : (∃ x, s.busWrite ag p v = .ok x t) ∨ s.busWrite ag p v = .stop t) : Stores (some p) s t := by
  refine ⟨fun q hq => ?_, nofun⟩
  rcases h with ⟨x, h⟩ | h
  · obtain ⟨-, -, -, -, q', hq', -, ⟨_, _, -, -, -, hram⟩ | ⟨-, -, -, hram⟩⟩ := State.busWrite_ok h
    · rw [State.ramByte, hram]; rfl
    · rw [State.ramByte_of_ram_write hram, if_neg]
      rintro rfl
      exact hq (congrArg some (toNat_of_toPhys? hq').symm)
  · obtain ⟨-, rfl⟩ | ⟨_, _, -, -, -, rfl⟩ | ⟨_, -, -, -, rfl⟩ := State.busWrite_stop h <;> rfl

theorem nextAll_engine_stores (h : EngineOnly s t) : NextAll (Stores a s) (.next t) :=
  (nextAll_next t).2 (.of_engineOnly h)

theorem nextAll_need_stores {value : Option α} {name : RegName} {k : α → Out}
    (hk : ∀ x, value = some x → NextAll (Stores a s) (k x)) : NextAll (Stores a s) (need value name s k) :=
  nextAll_need (s.raise_stores _) hk

theorem nextAll_engRead_stores {k : Byte → State → State} (hk : ∀ v u, EngineOnly u (k v u)) :
    NextAll (Stores a s) (engRead p s k) :=
  nextAll_engRead (fun v u hb => (State.busRead_stores (.inl ⟨v, hb⟩)).andThen (hk v u))
    fun _ hb => State.busRead_stores (.inr hb)

theorem nextAll_engWrite_stores {v : Byte} {k : State → State} (ha : a = some p) (hk : ∀ u, EngineOnly u (k u)) :
    NextAll (Stores a s) (engWrite p v s k) :=
  ha ▸ nextAll_engWrite (fun x u hb => (State.busWrite_stores (.inl ⟨x, hb⟩)).andThen (hk u))
    fun _ hb => State.busWrite_stores (.inr hb)

theorem nextAll_engFirstWrite_stores {v : Byte} {k : State → State} (ha : a = some p)
    (hk : ∀ u, EngineOnly u (k u)) : NextAll (Stores a s) (engFirstWrite p v s k) := by
  unfold engFirstWrite
  split
  · exact (nextAll_next _).2 (s.raise_stores _)
  · exact nextAll_engWrite_stores ha hk

/-- A device command stores at the host address of its write cycle (R92). -/
theorem nextAll_issueCycle_stores (h : storedAt i s =
      (i.cycles[s.stmt]?).bind fun c => if c.wr then (s.cfg.hostAddr? c.a).map (·.toNat) else none) :
    NextAll (Stores (storedAt i s) s) (issueCycle i s) := by
  have hafter : ∀ u : State, EngineOnly u (if s.stmt + 1 < i.cycles.length then u.goto (s.stmt + 1) else u.ret) := by
    intro u
    split <;> exact ⟨rfl, rfl, rfl, rfl, rfl, rfl, rfl, rfl, rfl, rfl, rfl⟩
  unfold issueCycle
  split
  · simp
  next c hc =>
    split
    · simp
    next q hq =>
      dsimp only
      split
      next hwr => exact nextAll_engWrite_stores (by simp [h, hc, hwr, hq]) hafter
      next hwr => exact nextAll_engRead_stores fun _ => hafter

/-- A statement stores nowhere but at `storedAt` (R65, R67, R70, R190). -/
theorem exec_stores_all (i : Instr) (s : State) : NextAll (Stores (storedAt i s) s) (exec i s) := by
  cases i with
  | readArray | swidEntry | swidRead | swidExit | sectorErase | byteProgram | statusRead =>
    exact nextAll_issueCycle_stores rfl
  | poll | cal | waitProgram | waitErase | csEnter | csExit | detect | idDecode | eraseSector | programByte | plan
  | overlap | compareBlock | flash | verify | run | halt =>
    dsimp only [exec]
    first
      | unfold execPoll | unfold execCal | unfold execWaitProgram | unfold execWaitErase | unfold execCsEnter
      | unfold execCsExit | unfold execDetect | unfold execIdDecode idTest idSet | unfold execEraseSector
      | unfold execProgramByte | unfold execPlan | unfold execOverlap | unfold execCompareBlock
      | unfold execFlash | unfold execVerify | unfold execRun | unfold execHalt
    split <;>
      repeat' first
        | with_reducible exact (nextAll_fault _).2 trivial
        | with_reducible refine nextAll_need_stores fun _ _ => ?_
        | with_reducible refine nextAll_needImage fun _ _ => ?_
        | with_reducible refine nextAll_engRead_stores fun _ _ => ?_
        | with_reducible refine nextAll_engWrite_stores ?_ fun _ => ?_
        | with_reducible refine nextAll_engFirstWrite_stores ?_ fun _ => ?_
        | with_reducible refine nextAll_engine_stores ?_
        | exact EngineOnly.keyTakenSet
        | exact ⟨rfl, rfl, rfl, rfl, rfl, rfl, rfl, rfl, rfl, rfl, rfl⟩
        | simp only [storedAt, Option.map_some, *]

/-- Settles O18: the RAM and HIST by where the statement stores, the array because no statement writes it. -/
theorem storesOnlyAtStoredAddress : Obligations.StoresOnlyAtStoredAddress := by
  intro i s t h
  obtain ⟨hram, hbus⟩ := exec_stores_all i s t h
  have hcore := exec_coreStep h
  obtain ⟨hcfg, -⟩ := hcore.sameInputs
  exact ⟨fun a => by rw [State.arrayByte, hcfg, hcore.array, State.arrayByte], hram, hbus⟩

end Machine

end Sys2Proof
end

section
/-! PROOFS. Procedures that only read: what the engine's reads leave of the state (`Seen`), runs of one procedure
(`Leads`), and the loop that compares bytes up to the first that differs (`ByteLoop`), which COMPARE_BLOCK (R218) and
VERIFY (R222) run. -/

namespace Sys2Proof

namespace Machine

/-! ## Runs of one procedure -/

/-- Some number of statements of `i` leads from `s` to a state of which `Q` holds. -/
def Leads (i : Instr) (s : State) (Q : State → Prop) : Prop := ∃ m t, execN i m s = .next t ∧ Q t

variable {i : Instr} {s t u : State} {Q R : State → Prop}

theorem Leads.here (h : Q s) : Leads i s Q := ⟨0, s, rfl, h⟩

theorem Leads.step (h : exec i s = .next t) (ht : Leads i t Q) : Leads i s Q :=
  let ⟨m, u, hm, hu⟩ := ht
  ⟨m + 1, u, (execN_succ h m).trans hm, hu⟩

theorem execN_add {m n : Nat} (h : execN i m s = .next t) : execN i (m + n) s = execN i n t := by
  induction m generalizing s with
  | zero => cases h; rw [Nat.zero_add]
  | succ m ih =>
    rw [Nat.succ_add]
    cases hx : exec i s with
    | next v => rw [execN_succ hx] at h ⊢; exact ih h
    | fault r => simp [execN, hx] at h
    | refused r => simp [execN, hx] at h

theorem Leads.bind (h : Leads i s Q) (hQ : ∀ t, Q t → Leads i t R) : Leads i s R := by
  obtain ⟨m, t, hm, ht⟩ := h
  obtain ⟨n, u, hn, hu⟩ := hQ t ht
  exact ⟨m + n, u, (execN_add hm).trans hn, hu⟩

/-! ## What reads leave of the state -/

/-- The mode after accepted reads is the mode before, or ID with another stale count (R122, R127). -/
def KeepsMode (m m' : DevMode) : Prop := m' = m ∨ ∃ n k, m = .id n ∧ m' = .id k

theorem KeepsMode.trans {m m' m'' : DevMode} (h : KeepsMode m m') (h' : KeepsMode m' m'') : KeepsMode m m'' := by
  rcases h with rfl | ⟨n, k, rfl, rfl⟩
  · exact h'
  · obtain rfl | ⟨_, j, _, rfl⟩ := h'
    · exact .inr ⟨n, k, rfl, rfl⟩
    · exact .inr ⟨n, j, rfl, rfl⟩

/-- `s` after the entries `l`, with another mode, count of draws, registers and EPC. -/
def State.reading (s : State) (m : DevMode) (draws : Nat) (l : List BusEvent) (g : Regs) (epc : List Frame) : State :=
  { s with dev := { s.dev with mode := m }, hist := s.hist ++ l, draws := draws, regs := g, epc := epc }

/-- `t` is `s` after the reads `l`, with registers `g` and EPC `epc`. `afterReads` follows from it, and it is kept by
further reads. -/
def Seen (s : State) (l : List BusEvent) (g : Regs) (epc : List Frame) (t : State) : Prop :=
  ∃ m draws, KeepsMode s.dev.mode m ∧ t = s.reading m draws l g epc

variable {l : List BusEvent} {g : Regs} {epc rest : List Frame} {p k n : Nat}

theorem Seen.refl (s : State) : Seen s [] s.regs s.epc s :=
  ⟨s.dev.mode, s.draws, .inl rfl, by simp [State.reading]⟩

theorem Seen.afterReads (h : Seen s l g epc t) : afterReads s t l g epc := by
  obtain ⟨m, draws, hm, rfl⟩ := h
  refine ⟨rfl, fun hid => ?_⟩
  obtain rfl | ⟨n, _, hn, _⟩ := hm
  · rfl
  · exact absurd hn (hid n)

theorem Seen.regs (h : Seen s l g epc t) : t.regs = g := by obtain ⟨m, draws, -, rfl⟩ := h; rfl

theorem Seen.stmt (h : Seen s l g (⟨i, n⟩ :: rest) t) : t.stmt = n := by obtain ⟨m, draws, -, rfl⟩ := h; rfl

theorem Seen.pbase (h : Seen s l g epc t) (k : Nat) : t.pbase k = s.pbase k := by
  obtain ⟨m, draws, -, rfl⟩ := h; rfl

theorem Seen.imgByte? (h : Seen s l g epc t) (k b : Nat) : t.imgByte? k b = s.imgByte? k b := by
  obtain ⟨m, draws, -, rfl⟩ := h; rfl

theorem Seen.goto (h : Seen s l g (⟨i, n⟩ :: rest) t) (k : Nat) : Seen s l g (⟨i, k⟩ :: rest) (t.goto k) := by
  obtain ⟨m, draws, hm, rfl⟩ := h
  exact ⟨m, draws, hm, rfl⟩

theorem Seen.setRegs (h : Seen s l g epc t) (f : Regs → Regs) : Seen s l (f g) epc (t.setRegs f) := by
  obtain ⟨m, draws, hm, rfl⟩ := h
  exact ⟨m, draws, hm, rfl⟩

/-- A run between reads, which no mode and no count of draws can change. -/
theorem Seen.leads {g' : Regs} {epc' : List Frame} (h : Seen s l g epc u) (n : Nat)
    (hx : ∀ m draws, execN i n (s.reading m draws l g epc) = .next (s.reading m draws l g' epc')) :
    Leads i u (Seen s l g' epc') := by
  obtain ⟨m, draws, hm, rfl⟩ := h
  exact ⟨n, _, hx m draws, m, draws, hm, rfl⟩

/-- Reads do not change which reads the device accepts (R122). -/
theorem State.readAnswer_reading {m : DevMode} {draws : Nat} {a : DevAddr} (hm : KeepsMode s.dev.mode m)
    (h : s.readAnswer a ≠ .unaccepted) : (s.reading m draws l g epc).readAnswer a ≠ .unaccepted := by
  obtain rfl | ⟨n, k, -, rfl⟩ := hm
  · exact h
  · cases k <;> simp only [State.readAnswer, State.reading]
    · split
      · nofun
      · split <;> nofun
    · nofun

/-- A place that shows a byte answers with it, after reads too (R43, R70, R123). -/
theorem State.busRead_of_shows {ag : Agent} {x v : Byte} (h : Seen s l g epc u) (hv : s.shows p v)
    (hb : u.busRead ag p = .ok x t) : x = v := by
  obtain ⟨m, draws, hm, rfl⟩ := h
  obtain ⟨q, hq, hv⟩ := hv
  cases ha : s.cfg.devAddr? q with
  | some a =>
    simp only [ha] at hv
    obtain ⟨hread, rfl⟩ := hv
    obtain rfl | ⟨n, k, hn, -⟩ := hm
    · rw [State.busRead_device hq (by exact ha), State.devRead_read (by exact hread)] at hb
      cases hb
      rfl
    · rw [hread] at hn
      cases hn
  | none =>
    simp only [ha] at hv
    rw [State.busRead_other hq (by exact ha)] at hb
    cases hb
    obtain ⟨rfl, rfl⟩ | ⟨htick, htest, rfl⟩ := hv
    · exact State.otherByte_tickAddr (s.reading m draws l g epc)
    · exact State.otherByte_test (s := s.reading m draws l g epc) htick htest

/-- A readable place answers, after reads too, and the read is one more entry (R64, R122). -/
theorem State.busRead_of_readable (h : Seen s l g epc u) (hp : s.readable p) :
    ∃ x v, u.busRead .eng p = .ok x v ∧ Seen s (l ++ [⟨.eng, .R, BitVec.ofNat 20 p, x⟩]) g epc v := by
  obtain ⟨m, draws, hm, rfl⟩ := h
  obtain ⟨q, hq, hacc⟩ := hp
  obtain ⟨-, rfl⟩ := toPhys?_some hq
  have hlog (m' : DevMode) (d : Nat) (hm' : KeepsMode m m') (e : BusEvent) :
      Seen s (l ++ [e]) g epc ((s.reading m' d l g epc).log e) :=
    ⟨m', d, hm.trans hm', by simp [State.reading, State.log]⟩
  cases ha : s.cfg.devAddr? (BitVec.ofNat 20 p) with
  | none =>
    rw [State.busRead_other hq (by exact ha)]
    exact ⟨_, _, rfl, hlog m draws (.inl rfl) _⟩
  | some a =>
    rw [State.busRead_device hq (by exact ha), State.devRead]
    have hans := State.readAnswer_reading (draws := draws) (l := l) (g := g) (epc := epc) hm (hacc a ha)
    split
    · exact ⟨_, _, rfl, hlog m draws (.inl rfl) _⟩
    next m' hdraw => exact ⟨_, _, rfl, hlog m' _ (State.mode_of_readAnswer_draw hdraw) _⟩
    next hno => exact absurd hno hans

/-- A statement that reads a readable place goes on with the byte read, which is the byte shown, if there is one. -/
theorem Leads.read {f : Byte → State → State} (h : Seen s l g epc u) (hp : s.readable p)
    (hx : exec i u = engRead p u f)
    (hf : ∀ x v, Seen s (l ++ [⟨.eng, .R, BitVec.ofNat 20 p, x⟩]) g epc v → (∀ w, s.shows p w → x = w) →
      Leads i (f x v) Q) : Leads i u Q := by
  obtain ⟨x, v, hb, hv⟩ := State.busRead_of_readable h hp
  refine .step (hx.trans ?_) (hf x v hv fun w hw => State.busRead_of_shows h hw hb)
  rw [engRead, hb]

/-! ## Comparing bytes up to the first that differs -/

/-- Of the bytes `x` that were read at `base` on, each is the byte that its place shows, if it shows one. -/
def Shown (s : State) (base c : Nat) (x : Nat → Byte) : Prop :=
  ∀ j v, j < c → s.shows (base + j) v → x j = v

/-- `c` of at most `N` bytes were read and compared with those of `w`: all, and all agree, or up to the first that
differs. -/
def Compared (w : Nat → Option Byte) (N : Nat) (ok : Bool) (c : Nat) (x : Nat → Byte) : Prop :=
  (ok = true ∧ c = N ∧ ∀ j, j < c → w j = some (x j)) ∨
    (ok = false ∧ c ≤ N ∧ ∃ last, c = last + 1 ∧ w last ≠ some (x last) ∧ ∀ j, j < last → w j = some (x j))

variable {base N c : Nat} {w : Nat → Option Byte} {x : Nat → Byte} {v : Byte}

/-- Where every place shows a byte, all bytes agree exactly if memory holds the bytes of `w`. -/
theorem Compared.ok_iff {ok : Bool} (h : Compared w N ok c x) (hx : Shown s base c x)
    (hshows : ∀ j, j < N → ∃ v, s.shows (base + j) v) :
    ok = true ↔ ∀ j, j < N → ∃ v, s.shows (base + j) v ∧ w j = some v := by
  obtain ⟨rfl, rfl, hall⟩ | ⟨rfl, hc, last, rfl, hdiff, -⟩ := h
  · refine iff_of_true rfl fun j hj => ?_
    obtain ⟨v, hv⟩ := hshows j hj
    exact ⟨v, hv, hx j v hj hv ▸ hall j hj⟩
  · refine iff_of_false nofun fun hall => ?_
    obtain ⟨v, hv, hw⟩ := hall last hc
    exact hdiff (hx last v last.lt_succ_self hv ▸ hw)

/-- One more read in order. -/
theorem readsFrom_update : readsFrom base (c + 1) (Function.update x c v) =
    readsFrom base c x ++ [⟨.eng, .R, BitVec.ofNat 20 (base + c), v⟩] := by
  have hbefore : readsFrom base c (Function.update x c v) = readsFrom base c x :=
    List.map_congr_left fun j hj => by rw [Function.update_of_ne (List.mem_range.mp hj).ne]
  rw [← hbefore]
  simp [readsFrom, List.range_succ]

theorem forall_lt_succ_update {P : Nat → Byte → Prop} (h : ∀ j, j < c → P j (x j)) (hc : P c v) :
    ∀ j, j < c + 1 → P j (Function.update x c v j) := by
  intro j hj
  obtain hj | rfl := Nat.lt_succ_iff_lt_or_eq.mp hj
  · rw [Function.update_of_ne hj.ne]
    exact h j hj
  · rwa [Function.update_self]

theorem Shown.update (h : Shown s base c x) (hv : ∀ y, s.shows (base + c) y → v = y) :
    Shown s base (c + 1) (Function.update x c v) := fun j y hj =>
  forall_lt_succ_update (P := fun j z => ∀ y, s.shows (base + j) y → z = y) (fun j hj y => h j y hj) hv j hj y

/-- The statements of a loop of `i` that compares the `N` bytes from `base` on with those of `w`. `pos j g` says that
registers `g` stand at byte `j`. -/
structure ByteLoop (i : Instr) (s : State) (rest : List Frame) (base N : Nat) (w : Nat → Option Byte)
    (pos : Nat → Regs → Prop) (test next differs last : Nat) : Prop where
  /-- Statement `test` reads byte `j` and compares it. -/
  byte : ∀ {j l g u}, j < N → pos j g → Seen s l g (⟨i, test⟩ :: rest) u →
    s.readable (base + j) ∧ ∃ y, w j = some y ∧
      exec i u = engRead (base + j) u fun x t => t.goto (if x = y then next else differs)
  /-- Statement `next` leads to the next byte's test, or behind the loop. -/
  advance : ∀ {j l g u}, j < N → pos j g → Seen s l g (⟨i, next⟩ :: rest) u →
    Leads i u fun t => ∃ g', pos (j + 1) g' ∧ Seen s l g' (⟨i, if j + 1 < N then test else last⟩ :: rest) t

/-- The loop has ended: behind its last byte, or where a byte differs. -/
def LoopEnds (i : Instr) (s : State) (rest : List Frame) (base N : Nat) (w : Nat → Option Byte)
    (pos : Nat → Regs → Prop) (differs last : Nat) (t : State) : Prop :=
  ∃ ok c x g j, pos j g ∧ Seen s (readsFrom base c x) g (⟨i, if ok then last else differs⟩ :: rest) t ∧
    Compared w N ok c x ∧ Shown s base c x

variable {pos : Nat → Regs → Prop} {test next differs last : Nat}

/-- The loop from byte `c` on, by induction on the number of bytes left. -/
theorem ByteLoop.leads_from (hloop : ByteLoop i s rest base N w pos test next differs last) {left : Nat}
    (hc : c + left = N) (hg : pos c g)
    (hu : Seen s (readsFrom base c x) g (⟨i, if c < N then test else last⟩ :: rest) u)
    (hw : ∀ j, j < c → w j = some (x j)) (hx : Shown s base c x) :
    Leads i u (LoopEnds i s rest base N w pos differs last) := by
  induction left generalizing c x g u with
  | zero =>
    obtain rfl : c = N := hc
    rw [if_neg (lt_irrefl c)] at hu
    exact .here ⟨true, c, x, g, c, hg, hu, .inl ⟨rfl, rfl, hw⟩, hx⟩
  | succ left ih =>
    have hcN : c < N := by omega
    rw [if_pos hcN] at hu
    obtain ⟨hread, y, hy, hexec⟩ := hloop.byte hcN hg hu
    refine .read hu hread hexec fun v t ht hshown => ?_
    rw [← readsFrom_update] at ht
    have ht := ht.goto (if v = y then next else differs)
    have hx := hx.update hshown
    by_cases hvy : v = y
    · subst hvy
      rw [if_pos rfl] at ht ⊢
      refine (hloop.advance hcN hg ht).bind fun t' ⟨g', hg', ht'⟩ => ?_
      exact ih (by omega) hg' ht' (forall_lt_succ_update (P := fun j z => w j = some z) hw hy) hx
    · rw [if_neg hvy] at ht ⊢
      refine .here ⟨false, c + 1, _, g, c, hg, ht, .inr ⟨rfl, hcN, c, rfl, ?_, fun j hj => ?_⟩, hx⟩
      · rw [Function.update_self, hy]
        exact fun h => hvy (Option.some.inj h).symm
      · rw [Function.update_of_ne hj.ne]
        exact hw j hj

/-- The whole loop and the return behind it, where `result` writes the procedure's result register. -/
theorem ByteLoop.leads_return (hloop : ByteLoop i s rest base N w pos test next differs last)
    (hstart : Leads i s fun t => ∃ g, pos 0 g ∧ Seen s [] g (⟨i, if 0 < N then test else last⟩ :: rest) t)
    {result : Bool → Regs → Regs}
    (hreturn : ∀ {l g u} ok, Seen s l g (⟨i, if ok then last else differs⟩ :: rest) u →
      Leads i u (Seen s l (result ok g) rest)) :
    Leads i s fun t => ∃ ok c x g j, pos j g ∧ Seen s (readsFrom base c x) (result ok g) rest t ∧
      Compared w N ok c x ∧ Shown s base c x := by
  refine hstart.bind fun u ⟨g, hg, hu⟩ => ?_
  have hends := hloop.leads_from (x := fun _ => 0) (Nat.zero_add N) hg hu (by simp) (by simp [Shown])
  refine hends.bind fun t ⟨ok, c, x, g, j, hg, ht, hcompared, hshown⟩ => ?_
  exact (hreturn ok ht).bind fun v hv => .here ⟨ok, c, x, g, j, hg, hv, hcompared, hshown⟩

/-! ## COMPARE_BLOCK -/

section CompareBlock

variable {b : Nat}

/-- The registers of COMPARE_BLOCK at byte `b` (R218). -/
def CompareAt (s : State) (b : Nat) (g : Regs) : Prop := g = { s.regs with b := some b }

theorem compareBlock_start (he : s.epc = ⟨.compareBlock k, 0⟩ :: rest) :
    Leads (.compareBlock k) s fun t => ∃ g, CompareAt s 0 g ∧ Seen s [] g (⟨.compareBlock k, 2⟩ :: rest) t := by
  refine ⟨2, _, ?_, _, rfl, s.dev.mode, s.draws, .inl rfl, rfl⟩
  simp [execN, exec, execCompareBlock, State.reading, State.stmt, State.goto, State.setRegs, he]

theorem compareBlock_advance (hg : CompareAt s b g) (h : Seen s l g (⟨.compareBlock k, 3⟩ :: rest) u) :
    Leads (.compareBlock k) u fun t => ∃ g', CompareAt s (b + 1) g' ∧
      Seen s l g' (⟨.compareBlock k, if b + 1 < SECTOR then 2 else 5⟩ :: rest) t := by
  obtain ⟨m, draws, hm, rfl⟩ := h
  obtain rfl := hg
  refine ⟨2, _, ?_, _, rfl, m, draws, hm, rfl⟩
  simp [execN, exec, execCompareBlock, State.reading, State.stmt, State.goto, State.setRegs]

/-- COMPARE_BLOCK's loop over the block's bytes (R218). -/
theorem compareBlock_byteLoop (hblock : s.blockReadable k) :
    ByteLoop (.compareBlock k) s rest (s.pbase k) SECTOR (s.imgByte? k) (CompareAt s) 2 3 4 5 where
  byte {b l g u} hb hg hu := by
    obtain ⟨hread, y, hy⟩ := hblock b hb
    refine ⟨hread, y, hy, ?_⟩
    obtain rfl := hg
    simp [exec, execCompareBlock, needImage, hu.stmt, hu.regs, hu.pbase, hu.imgByte?, hy]
  advance _ hg hu := compareBlock_advance hg hu

/-- COMPARE_BLOCK's two returns (R218). -/
theorem compareBlock_return (ok : Bool) (h : Seen s l g (⟨.compareBlock k, if ok then 5 else 4⟩ :: rest) u) :
    Leads (.compareBlock k) u (Seen s l { g with equal := some ok } rest) := by
  refine h.leads 1 fun m draws => ?_
  cases ok <;> simp [execN, exec, execCompareBlock, State.reading, State.stmt, State.setRegs, State.ret]

/-- Settles O48: the loop over the block's bytes, and then one of the two returns. -/
theorem compareBlockCompares : Obligations.CompareBlockCompares := by
  intro s k rest he hblock
  obtain ⟨m, t, hm, ok, c, x, g, b, hg, hseen, hcompared, hshown⟩ :=
    (compareBlock_byteLoop hblock).leads_return (compareBlock_start he)
      (result := fun ok g => { g with equal := some ok }) compareBlock_return
  obtain rfl := hg
  refine ⟨m, t, c, x, ok, hm, ?_, hcompared, fun b v hb => hshown b v hb,
    fun hshows => hcompared.ok_iff hshown hshows⟩
  rw [hseen.regs]
  exact hseen.afterReads

end CompareBlock

/-! ## VERIFY -/

/-- A byte of the image lies in one of its blocks. -/
theorem State.lt_L_iff {j : Nat} : j < s.L ↔ j / SECTOR < s.NBLK := (Nat.div_lt_iff_lt_mul (by decide)).symm

/-- Byte `j` of the image has its place `j` bytes behind D:0 (R217). -/
theorem State.pbase_div_mod (s : State) (j : Nat) : s.pbase (j / SECTOR) + j % SECTOR = s.pbase 0 + j := by
  simp only [State.pbase, physical, SECTOR]
  omega

section Verify

variable {b : Nat}

/-- The block loop enters block `k` at its first byte (R222). -/
theorem verify_enterBlock (hk : k < s.NBLK) (hi : g.i = some k) (h : Seen s l g (⟨.verify, 1⟩ :: rest) u) :
    Leads .verify u (Seen s l { g with b := some 0 } (⟨.verify, 4⟩ :: rest)) := by
  have hk : k < s.img.length := hk
  refine h.leads 3 fun m draws => ?_
  simp [execN, exec, execVerify, State.reading, State.stmt, State.goto, State.setRegs, State.NBLK, hi, hk]

/-- The block loop ends behind the last block (R222). -/
theorem verify_leaveBlocks (hk : ¬ k < s.NBLK) (hi : g.i = some k) (h : Seen s l g (⟨.verify, 1⟩ :: rest) u) :
    Leads .verify u (Seen s l g (⟨.verify, 9⟩ :: rest)) := by
  have hk : ¬ k < s.img.length := hk
  refine h.leads 1 fun m draws => ?_
  simp [execN, exec, execVerify, State.reading, State.stmt, State.goto, State.NBLK, hi, hk]

/-- The byte loop goes on in its block (R222). -/
theorem verify_nextByte (hb : b + 1 < SECTOR) (hg : g.b = some b) (h : Seen s l g (⟨.verify, 5⟩ :: rest) u) :
    Leads .verify u (Seen s l { g with b := some (b + 1) } (⟨.verify, 4⟩ :: rest)) := by
  refine h.leads 2 fun m draws => ?_
  simp [execN, exec, execVerify, State.reading, State.stmt, State.goto, State.setRegs, hg, hb]

/-- The byte loop ends behind the block's last byte (R222). -/
theorem verify_nextBlock (hb : ¬ b + 1 < SECTOR) (hg : g.b = some b) (hi : g.i = some k)
    (h : Seen s l g (⟨.verify, 5⟩ :: rest) u) :
    Leads .verify u (Seen s l { g with i := some (k + 1), b := some (b + 1) } (⟨.verify, 1⟩ :: rest)) := by
  refine h.leads 3 fun m draws => ?_
  simp [execN, exec, execVerify, State.reading, State.stmt, State.goto, State.setRegs, hg, hi, hb]

/-- The registers of VERIFY at byte `j` of the image (R222); behind the last byte b names no byte. -/
def VerifyAt (s : State) (j : Nat) (g : Regs) : Prop :=
  ∃ b, g = { s.regs with i := some (j / SECTOR), b := b } ∧ (j < s.L → b = some (j % SECTOR))

/-- VERIFY stands at its test of byte `j`, or behind its loop (R222). -/
def VerifyHead (s : State) (rest : List Frame) (l : List BusEvent) (j : Nat) (t : State) : Prop :=
  ∃ g, VerifyAt s j g ∧ Seen s l g (⟨.verify, if j < s.L then 4 else 9⟩ :: rest) t

/-- From the block loop's test VERIFY comes to block `k`'s first byte, or behind the loop. -/
theorem verify_block {b : Option Nat}
    (h : Seen s l { s.regs with i := some k, b := b } (⟨.verify, 1⟩ :: rest) u) :
    Leads .verify u (VerifyHead s rest l (k * SECTOR)) := by
  have hL : k * SECTOR < s.L ↔ k < s.NBLK := Nat.mul_lt_mul_right (by decide)
  have hdiv : k * SECTOR / SECTOR = k := Nat.mul_div_cancel k (by decide)
  by_cases hk : k < s.NBLK
  · refine (verify_enterBlock hk rfl h).bind fun t ht => .here ⟨_, ⟨some 0, by rw [hdiv], fun _ => ?_⟩, ?_⟩
    · rw [Nat.mul_mod_left]
    · rwa [if_pos (hL.mpr hk)]
  · refine (verify_leaveBlocks hk rfl h).bind fun t ht => .here ⟨_, ⟨b, by rw [hdiv], fun h => ?_⟩, ?_⟩
    · exact absurd (hL.mp h) hk
    · rwa [if_neg (mt hL.mp hk)]

theorem verify_start (he : s.epc = ⟨.verify, 0⟩ :: rest) : Leads .verify s (VerifyHead s rest [] 0) := by
  have h : Seen s [] s.regs (⟨.verify, 0⟩ :: rest) s := he ▸ Seen.refl s
  refine .step (t := (s.setRegs fun g => { g with i := some 0 }).goto 1) ?_ ?_
  · simp [exec, execVerify, h.stmt]
  · have hfirst := verify_block (k := 0) ((h.setRegs fun g => { g with i := some 0 }).goto 1)
    rwa [Nat.zero_mul] at hfirst

theorem verify_advance {j : Nat} (hj : j < s.L) (hg : VerifyAt s j g) (h : Seen s l g (⟨.verify, 5⟩ :: rest) u) :
    Leads .verify u (VerifyHead s rest l (j + 1)) := by
  obtain ⟨b, rfl, hb⟩ := hg
  obtain rfl := hb hj
  by_cases hlast : j % SECTOR + 1 < SECTOR
  · have hmod : (j + 1) % SECTOR = j % SECTOR + 1 := by simp only [SECTOR] at hlast ⊢; omega
    have hdiv : (j + 1) / SECTOR = j / SECTOR := by simp only [SECTOR] at hlast ⊢; omega
    have hlt : j + 1 < s.L := by rwa [State.lt_L_iff, hdiv, ← State.lt_L_iff]
    refine (verify_nextByte hlast rfl h).bind fun t ht =>
      .here ⟨_, ⟨some (j % SECTOR + 1), by rw [hdiv], fun _ => ?_⟩, ?_⟩
    · rw [hmod]
    · rwa [if_pos hlt]
  · have hnext : j + 1 = (j / SECTOR + 1) * SECTOR := by simp only [SECTOR] at hlast ⊢; omega
    rw [hnext]
    exact (verify_nextBlock hlast rfl rfl h).bind fun t ht => verify_block ht

/-- VERIFY's loops, taken as one loop over the bytes of the image (R222). -/
theorem verify_byteLoop (himage : ∀ k, k < s.NBLK → s.blockReadable k) :
    ByteLoop .verify s rest (s.pbase 0) s.L (fun j => s.imgByte? (j / SECTOR) (j % SECTOR)) (VerifyAt s) 4 5 6 9 where
  byte {j l g u} hj hg hu := by
    have hk : j / SECTOR < s.NBLK := State.lt_L_iff.mp hj
    obtain ⟨hread, y, hy⟩ := himage _ hk (j % SECTOR) (Nat.mod_lt j (by decide))
    rw [s.pbase_div_mod j] at hread
    refine ⟨hread, y, hy, ?_⟩
    obtain ⟨b, rfl, hb⟩ := hg
    obtain rfl := hb hj
    simp [exec, execVerify, needImage, hu.stmt, hu.regs, hu.pbase, hu.imgByte?, hy, s.pbase_div_mod]
  advance hj hg hu := verify_advance hj hg hu

/-- VERIFY's ends: VOK is 0 or 1, and the return (R222). -/
theorem verify_return (ok : Bool) (h : Seen s l g (⟨.verify, if ok then 9 else 6⟩ :: rest) u) :
    Leads .verify u (Seen s l { g with VOK := some ok } rest) := by
  cases ok with
  | true =>
    refine h.leads 1 fun m draws => ?_
    simp [execN, exec, execVerify, State.reading, State.stmt, State.setRegs, State.ret]
  | false =>
    refine h.leads 2 fun m draws => ?_
    simp [execN, exec, execVerify, State.reading, State.stmt, State.goto, State.setRegs, State.ret]

/-- Every block's bytes are the image's bytes in order. -/
theorem State.forall_blockEqual_iff : (∀ k, k < s.NBLK → s.blockEqual k) ↔
    ∀ j, j < s.L → ∃ v, s.shows (s.pbase 0 + j) v ∧ s.imgByte? (j / SECTOR) (j % SECTOR) = some v := by
  refine ⟨fun h j hj => ?_, fun h k hk b hb => ?_⟩
  · rw [← s.pbase_div_mod j]
    exact h _ (State.lt_L_iff.mp hj) _ (Nat.mod_lt j (by decide))
  · have hdiv : (k * SECTOR + b) / SECTOR = k := by simp only [SECTOR] at hb ⊢; omega
    have hmod : (k * SECTOR + b) % SECTOR = b := by simp only [SECTOR] at hb ⊢; omega
    have hbyte := h (k * SECTOR + b) (State.lt_L_iff.mpr (by rwa [hdiv]))
    rwa [← s.pbase_div_mod, hdiv, hmod] at hbyte

/-- Settles O51: the loop over the image's bytes, and then one of the two ends. -/
theorem verifyReadsBack : Obligations.VerifyReadsBack := by
  intro s rest he himage
  obtain ⟨m, t, hm, ok, c, x, g, j, hg, hseen, hcompared, hshown⟩ :=
    (verify_byteLoop himage).leads_return (verify_start he)
      (result := fun ok g => { g with VOK := some ok }) verify_return
  obtain ⟨b, rfl, -⟩ := hg
  refine ⟨m, t, c, x, ok, hm, ?_, hcompared, fun j v hj => hshown j v hj,
    fun hshows => (hcompared.ok_iff hshown hshows).trans State.forall_blockEqual_iff.symm⟩
  rw [hseen.regs]
  exact hseen.afterReads

end Verify

end Machine

end Sys2Proof
end

section
/-! PROOFS. OVERLAP (R215, R216): one place of the scan is passed over or probed with two reads, and the 16 places of
the window follow by induction. -/

namespace Sys2Proof

namespace Machine

variable {s t u : State} {l : List BusEvent} {g : Regs} {rest : List Frame}

/-! ## The reads of the scan -/

/-- The places `k` below `n` of the window at `S` that lie outside the destination (R215). -/
def probedBelow (S D : Seg) (L n : Nat) : List Nat :=
  (List.range n).filter fun k => !decide (D.toNat ≤ S.toNat + 0x80 * k ∧ S.toNat + 0x80 * k < D.toNat + L / 16)

theorem probedBelow_eq (S D : Seg) (L n : Nat) :
    probedBelow S D L n = (List.range n).filter fun k => !inDestination D L (S.toNat + 0x80 * k) := by
  simp only [probedBelow, inDestination, Bool.decide_and]

theorem mem_probedBelow {S D : Seg} {L n k : Nat} :
    k ∈ probedBelow S D L n ↔ k < n ∧ inDestination D L (S.toNat + 0x80 * k) = false := by
  simp [probedBelow_eq]

theorem probedBelow_succ (S D : Seg) (L n : Nat) : probedBelow S D L (n + 1) =
    probedBelow S D L n ++ if inDestination D L (S.toNat + 0x80 * n) then [] else [n] := by
  rw [probedBelow_eq, probedBelow_eq, List.range_succ, List.filter_append]
  cases hin : inDestination D L (S.toNat + 0x80 * n) <;> simp [hin]

/-- The entries `l` are the reads of the places `ps`, which gave the bytes `x` and `y`: those that memory shows, where
it shows one; and `o` says whether a signature is among them (R216). -/
structure Probed (s : State) (S : Seg) (ps : List Nat) (x y : Nat → Byte) (l : List BusEvent) (o : Bool) : Prop where
  reads : l = probeReads S ps x y
  signature : o = decide (∃ k ∈ ps, x k = 0x55 ∨ y k = 0xFF)
  shown : ∀ k ∈ ps, ∀ v, (s.shows ((S.toNat + 0x80 * k) * 16) v → x k = v) ∧
    (s.shows ((S.toNat + 0x80 * k) * 16 + 1) v → y k = v)

variable {S' : Seg} {ps : List Nat} {x y : Nat → Byte} {o : Bool} {n : Nat} {a b : Byte}

theorem Probed.nil (s : State) (S : Seg) (x y : Nat → Byte) : Probed s S [] x y [] false :=
  ⟨rfl, by simp, by simp⟩

/-- One more place, after those before it. -/
theorem Probed.probe (h : Probed s S' ps x y l o) (hn : n ∉ ps)
    (ha : ∀ v, s.shows ((S'.toNat + 0x80 * n) * 16) v → a = v)
    (hb : ∀ v, s.shows ((S'.toNat + 0x80 * n) * 16 + 1) v → b = v) :
    Probed s S' (ps ++ [n]) (Function.update x n a) (Function.update y n b)
      (l ++ [⟨.eng, .R, BitVec.ofNat 20 ((S'.toNat + 0x80 * n) * 16), a⟩] ++
        [⟨.eng, .R, BitVec.ofNat 20 ((S'.toNat + 0x80 * n) * 16 + 1), b⟩]) (o || romSignature a b) := by
  have hx : ∀ k ∈ ps, Function.update x n a k = x k :=
    fun k hk => Function.update_of_ne (ne_of_mem_of_not_mem hk hn) ..
  have hy : ∀ k ∈ ps, Function.update y n b k = y k :=
    fun k hk => Function.update_of_ne (ne_of_mem_of_not_mem hk hn) ..
  obtain ⟨hreads, hsignature, hshown⟩ := h
  refine ⟨?_, ?_, ?_⟩
  · have hbefore : probeReads S' ps (Function.update x n a) (Function.update y n b) = probeReads S' ps x y :=
      List.flatMap_congr fun k hk => by rw [hx k hk, hy k hk]
    rw [hreads, ← hbefore]
    simp [probeReads]
  · have hbefore : (∃ k ∈ ps, Function.update x n a k = 0x55 ∨ Function.update y n b k = 0xFF) ↔
        ∃ k ∈ ps, x k = 0x55 ∨ y k = 0xFF :=
      exists_congr fun k => and_congr_right fun hk => by rw [hx k hk, hy k hk]
    simp only [List.mem_append, List.mem_singleton, or_and_right, exists_or, hbefore, exists_eq_left,
      Function.update_self, Bool.decide_or, ← hsignature]
    rfl
  · intro k hk v
    rcases List.mem_append.mp hk with hk | hk
    · rw [hx k hk, hy k hk]
      exact hshown k hk v
    · obtain rfl := List.mem_singleton.mp hk
      rw [Function.update_self, Function.update_self]
      exact ⟨ha v, hb v⟩

/-! ## The statements of the scan -/

section Scan

variable {S D : Operand Seg} {L : Operand Nat} {D' : Seg} {L' c : Nat}

/-- A place inside the destination is passed over (R215). -/
theorem overlap_pass (hS : operand? S g.S = some S') (hD : operand? D (some s.D) = some D')
    (hL : operand? L (some s.L) = some L') (hc : g.curr = some c) (hlt : c < S'.toNat + WINDOW_SEGS)
    (hin : inDestination D' L' c = true) (h : Seen s l g (⟨.overlap S D L, 2⟩ :: rest) u) :
    Leads (.overlap S D L) u (Seen s l { g with curr := some (c + ROM_STRIDE) } (⟨.overlap S D L, 2⟩ :: rest)) := by
  have hL : operand? L (some (s.img.length * 4096)) = some L' := hL
  refine h.leads 3 fun m draws => ?_
  simp [execN, exec, execOverlap, State.reading, State.stmt, State.goto, State.setRegs, State.L, State.NBLK, hS, hD, hL,
    hc, hlt, hin]

/-- A place outside the destination is probed (R215). -/
theorem overlap_enter (hS : operand? S g.S = some S') (hD : operand? D (some s.D) = some D')
    (hL : operand? L (some s.L) = some L') (hc : g.curr = some c) (hlt : c < S'.toNat + WINDOW_SEGS)
    (hin : inDestination D' L' c = false) (h : Seen s l g (⟨.overlap S D L, 2⟩ :: rest) u) :
    Leads (.overlap S D L) u (Seen s l g (⟨.overlap S D L, 4⟩ :: rest)) := by
  have hL : operand? L (some (s.img.length * 4096)) = some L' := hL
  refine h.leads 2 fun m draws => ?_
  simp [execN, exec, execOverlap, State.reading, State.stmt, State.goto, State.L, State.NBLK, hS, hD, hL, hc, hlt, hin]

/-- The pair read sets OVL if it is a signature, and the scan goes on to the next place (R215, R216). -/
theorem overlap_mark (h : Seen s l g (⟨.overlap S D L, 6⟩ :: rest) u) (ho : g.OVL = some o) (ha : g.b0 = some a)
    (hb : g.b1 = some b) (hc : g.curr = some c) :
    Leads (.overlap S D L) u (Seen s l { g with OVL := some (o || romSignature a b), curr := some (c + ROM_STRIDE) }
      (⟨.overlap S D L, 2⟩ :: rest)) := by
  cases hsig : romSignature a b with
  | true =>
    refine h.leads 3 fun m draws => ?_
    simp [execN, exec, execOverlap, State.reading, State.stmt, State.goto, State.setRegs, ha, hb, hc, hsig]
  | false =>
    refine h.leads 2 fun m draws => ?_
    simp [execN, exec, execOverlap, State.reading, State.stmt, State.goto, State.setRegs, ha, hb, hc, hsig, ho]

/-- The two reads of a place, whatever answers there, and what follows from the pair read (R64, R215). -/
theorem overlap_probe (ho : g.OVL = some o) (hc : g.curr = some c) (h0 : s.readable (c * 16))
    (h1 : s.readable (c * 16 + 1)) (h : Seen s l g (⟨.overlap S D L, 4⟩ :: rest) u) :
    Leads (.overlap S D L) u fun t => ∃ a b, (∀ v, s.shows (c * 16) v → a = v) ∧
      (∀ v, s.shows (c * 16 + 1) v → b = v) ∧
      Seen s (l ++ [⟨.eng, .R, BitVec.ofNat 20 (c * 16), a⟩] ++ [⟨.eng, .R, BitVec.ofNat 20 (c * 16 + 1), b⟩])
        { g with OVL := some (o || romSignature a b), curr := some (c + ROM_STRIDE), b0 := some a, b1 := some b }
        (⟨.overlap S D L, 2⟩ :: rest) t := by
  refine .read h h0 (f := fun x t => (t.setRegs fun g => { g with b0 := some x }).goto 5) ?_ fun a v hfirst ha => ?_
  · simp [exec, execOverlap, h.stmt, h.regs, hc]
  have hv := (hfirst.setRegs fun g => { g with b0 := some a }).goto 5
  refine .read hv h1 (f := fun x t => (t.setRegs fun g => { g with b1 := some x }).goto 6) ?_ fun b w hsecond hb => ?_
  · simp [exec, execOverlap, hv.stmt, hfirst.regs, hc]
  have hw := (hsecond.setRegs fun g => { g with b1 := some b }).goto 6
  exact (overlap_mark hw ho rfl rfl hc).bind fun t ht => .here ⟨a, b, ha, hb, ht⟩

/-- OVERLAP stands before place `n` of its window, with all places before it done (R215). -/
def OverlapHead (s : State) (S D : Operand Seg) (L : Operand Nat) (S' D' : Seg) (L' : Nat) (rest : List Frame) (n : Nat)
    (t : State) : Prop :=
  ∃ x y l o b0 b1, Probed s S' (probedBelow S' D' L' n) x y l o ∧
    Seen s l { s.regs with OVL := some o, curr := some (S'.toNat + 0x80 * n), b0 := b0, b1 := b1 }
      (⟨.overlap S D L, 2⟩ :: rest) t

theorem overlap_start (he : s.epc = ⟨.overlap S D L, 0⟩ :: rest) (hS : operand? S s.regs.S = some S') :
    Leads (.overlap S D L) s (OverlapHead s S D L S' D' L' rest 0) := by
  have h : Seen s [] s.regs (⟨.overlap S D L, 0⟩ :: rest) s := he ▸ Seen.refl s
  have hstart : Leads (.overlap S D L) s
      (Seen s [] { s.regs with OVL := some false, curr := some S'.toNat } (⟨.overlap S D L, 2⟩ :: rest)) := by
    refine h.leads 2 fun m draws => ?_
    simp [execN, exec, execOverlap, State.reading, State.stmt, State.goto, State.setRegs, hS]
  exact hstart.bind fun t ht => .here ⟨0, 0, [], false, s.regs.b0, s.regs.b1, .nil s S' 0 0, ht⟩

/-- One place of the window. -/
theorem overlap_place (hS : operand? S s.regs.S = some S') (hD : operand? D (some s.D) = some D')
    (hL : operand? L (some s.L) = some L') (hn : n < 16)
    (hread : n ∈ probedBelow S' D' L' 16 →
      s.readable ((S'.toNat + 0x80 * n) * 16) ∧ s.readable ((S'.toNat + 0x80 * n) * 16 + 1))
    (h : OverlapHead s S D L S' D' L' rest n u) :
    Leads (.overlap S D L) u (OverlapHead s S D L S' D' L' rest (n + 1)) := by
  obtain ⟨x, y, l, o, b0, b1, hprobed, hu⟩ := h
  have hlt : S'.toNat + 0x80 * n < S'.toNat + WINDOW_SEGS := by simp only [WINDOW_SEGS]; omega
  cases hin : inDestination D' L' (S'.toNat + 0x80 * n) with
  | true =>
    refine (overlap_pass (by exact hS) hD hL rfl hlt hin hu).bind fun t ht => .here ⟨x, y, l, o, b0, b1, ?_, ht⟩
    rwa [probedBelow_succ, hin, if_pos rfl, List.append_nil]
  | false =>
    obtain ⟨h0, h1⟩ := hread (mem_probedBelow.mpr ⟨hn, hin⟩)
    have hnew : n ∉ probedBelow S' D' L' n := fun h => lt_irrefl n (mem_probedBelow.mp h).1
    refine (overlap_enter (by exact hS) hD hL rfl hlt hin hu).bind fun v hv => ?_
    refine (overlap_probe rfl rfl h0 h1 hv).bind fun t ⟨a, b, ha, hb, ht⟩ => ?_
    have hplaces : probedBelow S' D' L' (n + 1) = probedBelow S' D' L' n ++ [n] := by rw [probedBelow_succ, hin]; rfl
    exact .here ⟨_, _, _, _, _, _, hplaces ▸ hprobed.probe hnew ha hb, ht⟩

/-- The whole window, by induction on the number of places done. -/
theorem overlap_places (he : s.epc = ⟨.overlap S D L, 0⟩ :: rest) (hS : operand? S s.regs.S = some S')
    (hD : operand? D (some s.D) = some D') (hL : operand? L (some s.L) = some L')
    (hread : ∀ k ∈ probedBelow S' D' L' 16,
      s.readable ((S'.toNat + 0x80 * k) * 16) ∧ s.readable ((S'.toNat + 0x80 * k) * 16 + 1)) (hn : n ≤ 16) :
    Leads (.overlap S D L) s (OverlapHead s S D L S' D' L' rest n) := by
  induction n with
  | zero => exact overlap_start he hS
  | succ n ih => exact (ih (by omega)).bind fun t => overlap_place hS hD hL hn (hread n)

/-- Behind the window OVERLAP returns (R215). -/
theorem overlap_return (hS : operand? S g.S = some S') (hc : g.curr = some c) (hge : ¬ c < S'.toNat + WINDOW_SEGS)
    (h : Seen s l g (⟨.overlap S D L, 2⟩ :: rest) u) : Leads (.overlap S D L) u (Seen s l g rest) := by
  refine h.leads 2 fun m draws => ?_
  simp [execN, exec, execOverlap, State.reading, State.stmt, State.goto, State.ret, hS, hc, hge]

/-- The whole of OVERLAP: the 16 places of the window, and then the return. -/
theorem overlap_scan (he : s.epc = ⟨.overlap S D L, 0⟩ :: rest) (hS : operand? S s.regs.S = some S')
    (hD : operand? D (some s.D) = some D') (hL : operand? L (some s.L) = some L')
    (hread : ∀ k ∈ probedBelow S' D' L' 16,
      s.readable ((S'.toNat + 0x80 * k) * 16) ∧ s.readable ((S'.toNat + 0x80 * k) * 16 + 1)) :
    Leads (.overlap S D L) s fun t => ∃ x y l o c b0 b1, Probed s S' (probedBelow S' D' L' 16) x y l o ∧
      Seen s l { s.regs with OVL := some o, curr := some c, b0 := b0, b1 := b1 } rest t := by
  refine (overlap_places he hS hD hL hread le_rfl).bind fun u ⟨x, y, l, o, b0, b1, hprobed, hu⟩ => ?_
  have hreturn := overlap_return (by exact hS) rfl (by simp) hu
  exact hreturn.bind fun t ht => .here ⟨x, y, l, o, _, b0, b1, hprobed, ht⟩

end Scan

/-- Settles O47: each of the 16 places is passed over or probed, and nothing but the scan's registers is written. -/
theorem overlapScansWindow : Obligations.OverlapScansWindow := by
  intro s S D L S' D' L' rest he hS hD hL probed hread
  obtain ⟨m, t, hm, x, y, l, o, c, b0, b1, hprobed, hseen⟩ := overlap_scan he hS hD hL hread
  obtain ⟨rfl, rfl, hshown⟩ := hprobed
  refine ⟨m, t, x, y, hm, ?_, hshown⟩
  rw [hseen.regs]
  exact hseen.afterReads

end Machine

end Sys2Proof
end

section
/-! PROOFS. Encoding: the decoder on the cycles of a command, branch by branch (R95, R96), the cycles that a decoded
stream begins with (R97, R101), the fetch of a command from the queue (R96), and SWID_EXIT's one cycle (R128). -/

namespace Sys2Proof

variable {m : DevMode} {i : Instr} {cs rest : List Dcw}

/-! ## The cycles of command bytes -/

section CommandCycles

variable {c : Dcw} {h h' : HighBits} {o : BitVec 15} {v v' : Byte}

@[simp] theorem Dcw.wr_command : (Dcw.command h o v).wr = true := rfl

@[simp] theorem Dcw.high_command : DevAddr.high (Dcw.command h o v).a = h := DevAddr.high_ofCommand h o

@[simp] theorem Dcw.isCommand_command : (Dcw.command h o v).isCommand o v' = (v == v') := by
  simp [Dcw.isCommand, Dcw.command]

/-- The fields that the decoder tests, and the high bits it keeps, are the whole cycle (R92). -/
theorem Dcw.command_of_isCommand (hc : c.isCommand o v = true) : Dcw.command (DevAddr.high c.a) o v = c := by
  obtain ⟨wr, a, x⟩ := c
  simp only [Dcw.isCommand, Bool.and_eq_true, beq_iff_eq] at hc
  obtain ⟨⟨rfl, rfl⟩, rfl⟩ := hc
  rw [Dcw.command, DevAddr.ofCommand_eta]

/-- The same for the last cycle of a sector erase. -/
theorem Dcw.eraseConfirm_eta (hc : (c.wr && DevAddr.boff c.a == 0 && c.v == 0x30) = true) :
    ⟨true, DevAddr.ofSector (DevAddr.sector c.a) 0, 0x30⟩ = c := by
  obtain ⟨wr, a, x⟩ := c
  simp only [Bool.and_eq_true, beq_iff_eq] at hc
  obtain ⟨⟨rfl, hboff⟩, rfl⟩ := hc
  rw [← hboff, DevAddr.ofSector_eta]

end CommandCycles

/-! ## The decoder on the cycles of a command (R95, R96) -/

section Branches

variable (m) (rest) (h1 h2 h3 h4 h5 : HighBits) (sec : Sector) (a : DevAddr) (v : Byte)

theorem decode_read : decode m (⟨false, a, v⟩ :: rest) = (decodeRead m a v).map (·, rest) := rfl

theorem decode_unlock : decode m (.command h1 CMD_ADDR1 0xAA :: rest) = decodeUnlocked h1 rest := by
  simp [decode]

theorem decode_swidExit : decode m (.command h1 CMD_ADDR1 0xF0 :: rest) = .ok (.swidExit h1, rest) := by
  simp [decode]

theorem decodeUnlocked_swidEntry :
    decodeUnlocked h1 (.command h2 CMD_ADDR2 0x55 :: .command h3 CMD_ADDR1 0x90 :: rest) =
      .ok (.swidEntry h1 h2 h3, rest) := by
  simp [decodeUnlocked]

theorem decodeUnlocked_erase :
    decodeUnlocked h1 (.command h2 CMD_ADDR2 0x55 :: .command h3 CMD_ADDR1 0x80 :: rest) =
      decodeErase h1 h2 h3 rest := by
  simp [decodeUnlocked]

theorem decodeUnlocked_program :
    decodeUnlocked h1 (.command h2 CMD_ADDR2 0x55 :: .command h3 CMD_ADDR1 0xA0 :: rest) =
      decodeProgram h1 h2 h3 rest := by
  simp [decodeUnlocked]

theorem decodeErase_sectorErase :
    decodeErase h1 h2 h3 (.command h4 CMD_ADDR1 0xAA :: .command h5 CMD_ADDR2 0x55 ::
      ⟨true, DevAddr.ofSector sec 0, 0x30⟩ :: rest) = .ok (.sectorErase h1 h2 h3 h4 h5 sec, rest) := by
  simp [decodeErase]

theorem decodeProgram_byteProgram :
    decodeProgram h1 h2 h3 (⟨true, a, v⟩ :: rest) = .ok (.byteProgram h1 h2 h3 a v, rest) := rfl

end Branches

/-- A read decodes to the read command that the mode accepts (R101). -/
theorem decodeRead_of_acceptedIn {a : DevAddr} {v : Byte} (hc : i.cycles = [⟨false, a, v⟩])
    (ha : i.acceptedIn m = true) : decodeRead m a v = .ok i := by
  unfold Instr.acceptedIn at ha
  split at ha
  case h_1 | h_4 | h_8 | h_9 => cases hc; rfl
  case h_2 | h_3 | h_5 | h_6 | h_7 => cases hc
  case h_10 => cases ha

/-- The cycles of an accepted command (R95) decode to it, and what stands behind them is left. -/
theorem decode_cycles_append (ha : i.acceptedIn m = true) : decode m (i.cycles ++ rest) = .ok (i, rest) := by
  cases i with
  | readArray a v | swidRead a v | statusRead a v =>
    exact (decode_read m rest a v).trans (by rw [decodeRead_of_acceptedIn rfl ha]; rfl)
  | swidEntry h1 h2 h3 =>
    exact (decode_unlock m _ h1).trans (decodeUnlocked_swidEntry rest h1 h2 h3)
  | swidExit h1 => exact decode_swidExit m rest h1
  | sectorErase h1 h2 h3 h4 h5 sec =>
    calc decode m ((Instr.sectorErase h1 h2 h3 h4 h5 sec).cycles ++ rest)
      _ = decodeUnlocked h1 _ := decode_unlock m _ h1
      _ = decodeErase h1 h2 h3 _ := decodeUnlocked_erase _ h1 h2 h3
      _ = .ok (.sectorErase h1 h2 h3 h4 h5 sec, rest) := decodeErase_sectorErase rest h1 h2 h3 h4 h5 sec
  | byteProgram h1 h2 h3 a d =>
    calc decode m ((Instr.byteProgram h1 h2 h3 a d).cycles ++ rest)
      _ = decodeUnlocked h1 _ := decode_unlock m _ h1
      _ = decodeProgram h1 h2 h3 _ := decodeUnlocked_program _ h1 h2 h3
      _ = .ok (.byteProgram h1 h2 h3 a d, rest) := decodeProgram_byteProgram rest h1 h2 h3 a d
  | poll | cal | waitProgram | waitErase | csEnter | csExit | detect | idDecode | eraseSector | programByte | plan
  | overlap | compareBlock | flash | verify | run | halt => cases ha

/-! ## What a decoded stream begins with (R97, R101) -/

/-- The stream is the cycles of the device command `i`, and then `rest`. -/
def BeginsWith (i : Instr) (rest cs : List Dcw) : Prop := i.cycles ++ rest = cs ∧ i.isCommand = true

section Inversion

variable {h1 h2 h3 : HighBits} {a : DevAddr} {v : Byte} {c : Dcw}

theorem decodeRead_ok (h : decodeRead m a v = .ok i) : i.cycles = [⟨false, a, v⟩] ∧ i.acceptedIn m = true := by
  cases m with
  | read | id | ebusy | pbusy => cases h; exact ⟨rfl, rfl⟩
  | u1 | u2 | e1 | e2 | e3 | p1 | indet => cases h

theorem decodeErase_ok (h : decodeErase h1 h2 h3 cs = .ok (i, rest)) :
    BeginsWith i rest
      (.command h1 CMD_ADDR1 0xAA :: .command h2 CMD_ADDR2 0x55 :: .command h3 CMD_ADDR1 0x80 :: cs) := by
  unfold decodeErase at h
  split at h
  next c4 c5 c6 tail =>
    split at h
    · cases h
    next h4 =>
      split at h
      · cases h
      next h5 =>
        split at h
        · cases h
        next h6 =>
          simp only [Bool.not_eq_true', Bool.not_eq_false] at h4 h5 h6
          cases h
          refine ⟨?_, rfl⟩
          rw [Instr.cycles, Dcw.command_of_isCommand h4, Dcw.command_of_isCommand h5, Dcw.eraseConfirm_eta h6]
          rfl
  · cases h

theorem decodeProgram_ok (h : decodeProgram h1 h2 h3 cs = .ok (i, rest)) :
    BeginsWith i rest
      (.command h1 CMD_ADDR1 0xAA :: .command h2 CMD_ADDR2 0x55 :: .command h3 CMD_ADDR1 0xA0 :: cs) := by
  unfold decodeProgram at h
  split at h
  next c4 tail =>
    obtain ⟨wr, a, v⟩ := c4
    cases wr with
    | true => cases h; exact ⟨rfl, rfl⟩
    | false => cases h
  · cases h

theorem decodeUnlocked_ok (h : decodeUnlocked h1 cs = .ok (i, rest)) :
    BeginsWith i rest (.command h1 CMD_ADDR1 0xAA :: cs) := by
  unfold decodeUnlocked at h
  split at h
  next c2 c3 tail =>
    split at h
    · cases h
    next hc2 =>
      rw [Bool.not_eq_true', Bool.not_eq_false] at hc2
      split at h
      next hc3 =>
        cases h
        refine ⟨?_, rfl⟩
        rw [Instr.cycles, Dcw.command_of_isCommand hc2, Dcw.command_of_isCommand hc3]
        rfl
      · split at h
        next hc3 =>
          simpa only [Dcw.command_of_isCommand hc2, Dcw.command_of_isCommand hc3] using decodeErase_ok h
        · split at h
          next hc3 =>
            simpa only [Dcw.command_of_isCommand hc2, Dcw.command_of_isCommand hc3] using decodeProgram_ok h
          · cases h
  · cases h

/-- A stream that begins with a read decodes to that read and the rest (R101). -/
theorem decode_read_ok (hread : c.wr = false) (h : decode m (c :: cs) = .ok (i, rest)) :
    decodeRead m c.a c.v = .ok i ∧ rest = cs := by
  obtain ⟨wr, a, v⟩ := c
  cases hread
  rw [decode_read] at h
  cases hd : decodeRead m a v with
  | ok j => rw [hd] at h; cases h; exact ⟨rfl, rfl⟩
  | error e => rw [hd] at h; cases h

/-- No bit of a decoded stream is dropped: each test of the decoder fixes what it does not keep (R95). -/
theorem decode_ok (h : decode m cs = .ok (i, rest)) : BeginsWith i rest cs := by
  cases cs with
  | nil => cases h
  | cons c cs =>
    cases hwr : c.wr with
    | false =>
      obtain ⟨hread, rfl⟩ := decode_read_ok hwr h
      obtain ⟨hcycles, -⟩ := decodeRead_ok hread
      rw [BeginsWith, Instr.isCommand, hcycles, ← hwr]
      exact ⟨rfl, rfl⟩
    | true =>
      rw [decode, hwr, Bool.not_true, if_neg Bool.false_ne_true] at h
      split at h
      next hc =>
        simpa only [Dcw.command_of_isCommand hc] using decodeUnlocked_ok h
      · split at h
        next hc =>
          cases h
          exact ⟨by rw [Instr.cycles, Dcw.command_of_isCommand hc]; rfl, rfl⟩
        · cases h

end Inversion

/-! ## The obligations on the encoding -/

/-- Settles O1: the words read back as the command's cycles, and these decode branch by branch. -/
theorem decodeOfEncode : Obligations.DecodeOfEncode := by
  intro i m rest ha
  rw [decodeWords_encode, decode_cycles_append ha]

/-- Settles O2: each branch of the decoder keeps every field it does not test. -/
theorem encodeOfDecode : Obligations.EncodeOfDecode := by
  intro m cs rest i h
  obtain ⟨hcycles, hcommand⟩ := decode_ok h
  refine ⟨hcycles, hcommand, fun c hc hread => ?_⟩
  obtain rfl : c :: rest = cs := by rw [← hcycles, hc]; rfl
  exact (decodeRead_ok (decode_read_ok hread h).1).2

/-- Settles O3: the decoder evaluated on the words. -/
theorem decodeSampleWords : Obligations.DecodeSampleWords := by
  unfold Obligations.DecodeSampleWords
  decide

namespace Machine

variable {s : State}

/-! ## The fetch of a device command (R96) -/

theorem fetchStep_of_decode (hd : decodeWords s.dev.mode s.queue = .ok (i, rest)) (hw : i.wf s.cfg.part = true) :
    fetchStep s = exec i (s.fetched i) := by
  unfold fetchStep
  split
  next hq => rw [hq] at hd; cases hd
  · rw [hd]; exact if_pos hw

/-- Settles O5: an engine that has not ended and runs no procedure fetches. -/
theorem stepFetchesCommand : Obligations.StepFetchesCommand := by
  intro s i rest hlive hmove hepc hd hw
  have hended : s.moveTaken.ended = false := by rw [State.moveTaken_ended, State.ended_of_live hlive]
  have hfaults : s.faults = [] := hlive.1
  calc step s = engStep s.moveTaken := by rw [step_of_faults_nil hfaults, hmove]; rfl
    _ = fetchStep s.moveTaken := by simp [engStep, hended, hepc]
    _ = exec i (s.moveTaken.fetched i) :=
      fetchStep_of_decode (rest := rest) (by rwa [State.moveTaken_dev, State.moveTaken_queue])
        (by rwa [State.moveTaken_cfg])
    _ = _ := by rw [State.fetched, State.moveTaken_queue]

/-! ## A write cycle by the device's answer (R122, R139) -/

section WriteCycle

theorem State.afterCycle_last (u : State) {k : Nat} (hk : i.cycles.length ≤ k + 1) : u.afterCycle i k = u.ret :=
  if_neg hk.not_gt

theorem State.violate_of_nil (h : s.faults = []) :
    s.violate = { s with dev := { s.dev with mode := .indet, fault := true }, faults := [.protocolViolation] } :=
  State.raise_of_nil (by exact h) _

variable {c : Dcw} {p : PhysAddr}

/-- The statement of a device command whose cycle is a write: one bus write, and the frame moves on. -/
theorem issueCycle_of_write (hc : i.cycles[s.stmt]? = some c) (hwr : c.wr = true) (hp : s.cfg.hostAddr? c.a = some p) :
    issueCycle i s = engWrite p.toNat c.v s (·.afterCycle i s.stmt) := by
  simp only [issueCycle, hc, hp, hwr, if_true]
  rfl

theorem issueCycle_of_accepted {mode : DevMode} (hc : i.cycles[s.stmt]? = some c) (hwr : c.wr = true)
    (hp : s.cfg.hostAddr? c.a = some p) (hmode : Dev.writeMode s.cfg s.dev.mode c.a c.v = some mode) :
    issueCycle i s = .next (((s.setMode mode).log ⟨.eng, .W, p, c.v⟩).afterCycle i s.stmt) := by
  rw [issueCycle_of_write hc hwr hp, engWrite,
    State.busWrite_device (toPhys?_toNat p) (Config.devAddr?_of_hostAddr? hp), State.devWrite_accepted hmode]

theorem issueCycle_of_unaccepted (hc : i.cycles[s.stmt]? = some c) (hwr : c.wr = true)
    (hp : s.cfg.hostAddr? c.a = some p) (hmode : Dev.writeMode s.cfg s.dev.mode c.a c.v = none) :
    issueCycle i s = .next (s.log ⟨.eng, .W, p, c.v⟩).violate := by
  rw [issueCycle_of_write hc hwr hp, engWrite,
    State.busWrite_device (toPhys?_toNat p) (Config.devAddr?_of_hostAddr? hp), State.devWrite_unaccepted hmode]

end WriteCycle

/-! ## SWID_EXIT (R128) -/

section SwidExit

variable {h : HighBits}

theorem Dev.writeMode_exit_of_id (c : Config) (n : Nat) :
    Dev.writeMode c (.id n) (DevAddr.ofCommand h CMD_ADDR1) 0xF0 = some .read := by
  simp [Dev.writeMode]

theorem Dev.writeMode_exit_of_read (c : Config) :
    Dev.writeMode c .read (DevAddr.ofCommand h CMD_ADDR1) 0xF0 = none := by
  simp [Dev.writeMode]

/-- Settles O31: the one cycle is accepted in ID and in READ it is not. -/
theorem swidExitReturnsToRead : Obligations.SwidExitReturnsToRead := by
  intro s h p rest he hp
  have hcycle : (Instr.swidExit h).cycles[s.stmt]? = some (.command h CMD_ADDR1 0xF0) := by
    rw [State.stmt_of_epc he]; rfl
  refine ⟨fun n hid => ?_, fun hread hfaults => ?_⟩
  · have hmode := Dev.writeMode_exit_of_id (h := h) s.cfg n
    rw [← hid] at hmode
    rw [exec_of_isCommand rfl, issueCycle_of_accepted hcycle rfl hp hmode, State.stmt_of_epc he,
      State.afterCycle_last _ (le_refl 1), State.ret, State.log_epc, State.setMode_epc, he]
    rfl
  · have hmode := Dev.writeMode_exit_of_read (h := h) s.cfg
    rw [← hread] at hmode
    rw [exec_of_isCommand rfl, issueCycle_of_unaccepted hcycle rfl hp hmode,
      State.violate_of_nil (by exact hfaults)]
    rfl

end SwidExit

end Machine

end Sys2Proof
end

section
/-! PROOFS. The device: its acceptance table (R122), violations and INDET (R139, R142), completions (R138, R140), the
commands of R95 cycle by cycle, and the sequences that ERASE_SECTOR and PROGRAM_BYTE issue (R184, R185). -/

namespace Sys2Proof

namespace Machine

variable {s t u : State} {i : Instr} {p : Nat} {q : PhysAddr} {a : DevAddr} {v : Byte}

/-! ## The acceptance table (R122) -/

/-- Settles O22: the write and the read rows, mode by mode. -/
theorem acceptanceTable : Obligations.AcceptanceTable := by
  refine ⟨fun c m m' a v => ?_, fun s a => ?_⟩
  · cases m with
    | ebusy | pbusy => simp [Dev.writeMode]
    | p1 | indet => simp [Dev.writeMode, eq_comm]
    | read | u1 | u2 | id | e1 | e2 | e3 =>
      simp only [Dev.writeMode]
      grind
  · cases hm : s.dev.mode with
    | read | ebusy | pbusy | indet | u1 | u2 | e1 | e2 | e3 | p1 => simp [State.readAnswer, hm]
    | id n =>
      cases n with
      | succ k => simp [State.readAnswer, hm]
      | zero => simp only [State.readAnswer, hm]; grind

/-! ## Violations and INDET (R139, R142) -/

theorem State.setMode_self {m : DevMode} (h : s.dev.mode = m) : s.setMode m = s := by
  subst h
  rfl

/-- A read that the device answers with a draw (R127, R137, R142). -/
theorem State.devRead_draw {ag : Agent} {m : DevMode} (h : s.readAnswer a = .draw m) :
    s.devRead ag q a = .ok s.fresh ((s.setMode m).drawn.log ⟨ag, .R, q, s.fresh⟩) := by
  simp [State.devRead, h]

/-- A read that is not accepted is a violation (R139). -/
theorem State.devRead_unaccepted {ag : Agent} (h : s.readAnswer a = .unaccepted) :
    s.devRead ag q a = .stop (s.drawn.log ⟨ag, .R, q, s.fresh⟩).violate := by
  simp [State.devRead, h]

/-- Settles O23: the device's answer to a cycle that is not accepted, and in INDET. -/
theorem unacceptedCycleFaults : Obligations.UnacceptedCycleFaults := by
  intro s ag p q a hq ha
  refine ⟨fun v hno => ?_, fun hno => ?_, fun hindet => ⟨fun v => ?_, ?_, ?_⟩⟩
  · rw [State.busWrite_device hq ha, State.devWrite_unaccepted hno]; rfl
  · rw [State.busRead_device hq ha, State.devRead_unaccepted hno]; rfl
  · rw [State.busWrite_device hq ha, State.devWrite_accepted (m := .indet) (by rw [hindet]; rfl),
      State.setMode_self hindet]
    rfl
  · rw [State.busRead_device hq ha, State.devRead_draw (m := .indet) (by simp [State.readAnswer, hindet]),
      State.setMode_self hindet]
    rfl
  · exact State.complete_of_not_busy (by simp [State.busy, hindet])

/-! ## Completions (R138, R140, R141) -/

theorem DevAddr.sector_eq_iff {sec : Sector} : DevAddr.sector a = sec ↔
    sec.toNat * SECTOR ≤ a.toNat ∧ a.toNat < sec.toNat * SECTOR + SECTOR := by
  rw [← BitVec.toNat_inj, DevAddr.toNat_sector]
  simp only [SECTOR]
  omega

theorem State.complete_of_ebusy {sec : Sector} (h : s.dev.mode = .ebusy sec) :
    s.complete = { s with
      dev := { s.dev with
        mode := .read, array := Memory.fill (blankByte s.cfg.memcfg) s.dev.array (sec.toNat * SECTOR) SECTOR 0xFF },
      hist := s.hist ++ [⟨.dev, .C, BitVec.ofNat 20 (sec.toNat * SECTOR), 0⟩] } := by
  simp only [State.complete, h]
  rfl

theorem State.complete_of_pbusy {pa : DevAddr} {pd : Byte} (h : s.dev.mode = .pbusy pa pd) :
    s.complete = { s with
      dev := { s.dev with
        mode := .read,
        array := Memory.write (blankByte s.cfg.memcfg) s.dev.array pa.toNat (prog (s.arrayByte pa) pd) },
      hist := s.hist ++ [⟨.dev, .C, pa.setWidth 20, 0⟩] } := by
  simp only [State.complete, h]
  rfl

theorem State.arrayByte_complete_of_ebusy {sec : Sector} (h : s.dev.mode = .ebusy sec) (a : DevAddr) :
    s.complete.arrayByte a = if DevAddr.sector a = sec then 0xFF else s.arrayByte a := by
  rw [State.complete_of_ebusy h]
  simp only [State.arrayByte, Memory.read_fill, DevAddr.sector_eq_iff]

theorem State.arrayByte_complete_of_pbusy {pa : DevAddr} {pd : Byte} (h : s.dev.mode = .pbusy pa pd) (a : DevAddr) :
    s.complete.arrayByte a = if a = pa then prog (s.arrayByte pa) pd else s.arrayByte a := by
  rw [State.complete_of_pbusy h]
  simp only [State.arrayByte, Memory.read_write, BitVec.toNat_inj]

/-- Settles O24: a fill of the sector's bytes. -/
theorem eraseCompletes : Obligations.EraseCompletes := fun _ _ h =>
  ⟨State.arrayByte_complete_of_ebusy h, by rw [State.complete_of_ebusy h]⟩

/-- Settles O25: a write of the one byte. -/
theorem programCompletes : Obligations.ProgramCompletes := fun _ _ _ h =>
  ⟨State.arrayByte_complete_of_pbusy h, by rw [State.complete_of_pbusy h, BitVec.ofNat_toNat]⟩

/-! ## The commands of one read (R123, R127, R137) -/

/-- The statement of a command that is one read: the device's answer, and the command is over. -/
theorem issueCycle_of_read {v : Byte} {rest : List Frame} (hi : i.cycles = [⟨false, a, v⟩])
    (he : s.epc = ⟨i, 0⟩ :: rest) (hq : s.cfg.hostAddr? a = some q) :
    issueCycle i s = engRead q.toNat s fun _ t => t.ret := by
  simp [issueCycle, State.stmt_of_epc he, hi, hq]

/-- A read that gives a byte changes nothing but HIST. -/
theorem issueCycle_of_byte {v x : Byte} {rest : List Frame} (hi : i.cycles = [⟨false, a, v⟩])
    (he : s.epc = ⟨i, 0⟩ :: rest) (hq : s.cfg.hostAddr? a = some q) (hx : s.readAnswer a = .byte x) :
    issueCycle i s = .next { s with hist := s.hist ++ [⟨.eng, .R, q, x⟩], epc := rest } := by
  rw [issueCycle_of_read hi he hq, engRead,
    State.busRead_device (toPhys?_toNat q) (Config.devAddr?_of_hostAddr? hq)]
  simp [State.devRead, hx, State.ret, State.log, he]

/-- A read that gives a draw takes it, and leaves the device in the answer's mode. -/
theorem issueCycle_of_draw {v : Byte} {m : DevMode} {rest : List Frame} (hi : i.cycles = [⟨false, a, v⟩])
    (he : s.epc = ⟨i, 0⟩ :: rest) (hq : s.cfg.hostAddr? a = some q) (hm : s.readAnswer a = .draw m) :
    issueCycle i s = .next { s with dev := { s.dev with mode := m }, draws := s.draws + 1,
                                    hist := s.hist ++ [⟨.eng, .R, q, s.fresh⟩], epc := rest } := by
  rw [issueCycle_of_read hi he hq, engRead,
    State.busRead_device (toPhys?_toNat q) (Config.devAddr?_of_hostAddr? hq), State.devRead_draw hm]
  simp [State.ret, State.log, State.drawn, State.setMode, he]

/-- The same where the mode stays. -/
theorem issueCycle_of_draw_self {v : Byte} {rest : List Frame} (hi : i.cycles = [⟨false, a, v⟩])
    (he : s.epc = ⟨i, 0⟩ :: rest) (hq : s.cfg.hostAddr? a = some q) (hm : s.readAnswer a = .draw s.dev.mode) :
    issueCycle i s = .next { s with draws := s.draws + 1, hist := s.hist ++ [⟨.eng, .R, q, s.fresh⟩],
                                    epc := rest } :=
  issueCycle_of_draw hi he hq hm

/-- While busy the device answers every read with a draw and stays busy (R137). -/
theorem State.readAnswer_of_busy (h : s.busy = true) (a : DevAddr) : s.readAnswer a = .draw s.dev.mode := by
  cases hm : s.dev.mode with
  | ebusy | pbusy => simp [State.readAnswer, hm]
  | read | u1 | u2 | id | e1 | e2 | e3 | p1 | indet => simp [State.busy, hm] at h

/-- Settles O27: in READ the answer is the array byte. -/
theorem readArrayReturnsByte : Obligations.ReadArrayReturnsByte := by
  intro s a v p rest he hp hread
  exact issueCycle_of_byte rfl he hp (by simp [State.readAnswer, hread])

/-- Settles O28: in ID the answer is by the stale count, and then by the offset. -/
theorem swidReadReturnsIdBytes : Obligations.SwidReadReturnsIdBytes := by
  intro s a v p n rest he hp hid
  cases n with
  | succ k =>
    rw [if_pos k.succ_pos]
    exact issueCycle_of_draw rfl he hp (by simp [State.readAnswer, hid])
  | zero =>
    rw [if_neg (lt_irrefl 0)]
    split
    next h0 => exact issueCycle_of_byte rfl he hp (by simp [State.readAnswer, hid, h0])
    next h0 =>
      split
      next h1 => exact issueCycle_of_byte rfl he hp (by simp [State.readAnswer, hid, h1])
      next h1 => exact issueCycle_of_draw_self rfl he hp (by simp only [State.readAnswer, hid, if_neg h0, if_neg h1])

/-- Settles O29: a busy device answers with a draw at every address. -/
theorem statusReadReturnsDraw : Obligations.StatusReadReturnsDraw := by
  intro s a v p rest he hp hbusy
  exact issueCycle_of_draw_self rfl he hp (State.readAnswer_of_busy hbusy a)

/-! ## The rows of the table that the sequences use (R122) -/

section Rows

variable {c : Config} {b : Base}

theorem Dev.writeMode_read (h : DevAddr.offset a = CMD_ADDR1) : Dev.writeMode c .read a 0xAA = some (.u1 .read) :=
  if_pos ⟨h, rfl⟩

theorem Dev.writeMode_id {n : Nat} (h : DevAddr.offset a = CMD_ADDR1) :
    Dev.writeMode c (.id n) a 0xAA = some (.u1 .id) := by
  simp [Dev.writeMode, h]

theorem Dev.writeMode_u1 (h : DevAddr.offset a = CMD_ADDR2) : Dev.writeMode c (.u1 b) a 0x55 = some (.u2 b) :=
  if_pos ⟨h, rfl⟩

theorem Dev.writeMode_u2_swid (h : DevAddr.offset a = CMD_ADDR1) :
    Dev.writeMode c (.u2 b) a 0x90 = some (.id c.idStale) :=
  if_pos ⟨h, rfl⟩

theorem Dev.writeMode_u2_erase (h : DevAddr.offset a = CMD_ADDR1) : Dev.writeMode c (.u2 .read) a 0x80 = some .e1 := by
  simp [Dev.writeMode, h]

theorem Dev.writeMode_u2_program (h : DevAddr.offset a = CMD_ADDR1) :
    Dev.writeMode c (.u2 .read) a 0xA0 = some .p1 := by
  simp [Dev.writeMode, h]

theorem Dev.writeMode_e1 (h : DevAddr.offset a = CMD_ADDR1) : Dev.writeMode c .e1 a 0xAA = some .e2 := if_pos ⟨h, rfl⟩

theorem Dev.writeMode_e2 (h : DevAddr.offset a = CMD_ADDR2) : Dev.writeMode c .e2 a 0x55 = some .e3 := if_pos ⟨h, rfl⟩

theorem Dev.writeMode_e3 (h : DevAddr.boff a = 0) : Dev.writeMode c .e3 a 0x30 = some (.ebusy (DevAddr.sector a)) :=
  if_pos ⟨rfl, h⟩

end Rows

variable {m m' : DevMode} {l : List BusEvent} {rest : List Frame} {n k : Nat} {x : Byte} {c : Count}

/-! ## Runs of writes -/

/-- `n` statements of `i`, each with a frame of `i` on top, lead from `s` to `t`, and the engine stays live. -/
inductive OwnRun (i : Instr) : Nat → State → State → Prop
  | nil (s : State) : OwnRun i 0 s s
  | cons {n k : Nat} {rest : List Frame} {s t u : State} (he : s.epc = ⟨i, k⟩ :: rest) (hx : exec i s = .next t)
      (ht : OwnRun i n t u) (hl : s.live → t.live) : OwnRun i (n + 1) s u

theorem OwnRun.execN (h : OwnRun i n s t) : execN i n s = .next t := by
  induction h with
  | nil => rfl
  | cons _ hx _ _ ih => rw [execN_succ hx, ih]

theorem engRun_succ {f : Frame} (hlive : s.live) (he : s.epc = f :: rest) (hx : exec f.op s = .next t) (n : Nat) :
    engRun (n + 1) s = engRun n t := by
  simp [engRun, hlive.1, engStep_of_epc (State.ended_of_live hlive) he, hx]

theorem OwnRun.engRun (h : OwnRun i n s t) (hlive : s.live) : engRun n s = .next t := by
  induction h with
  | nil => rfl
  | cons he hx _ hl ih => rw [engRun_succ hlive he hx, ih (hl hlive)]

/-- `s` after the accepted writes `l`, in mode `m` and with EPC `epc`. -/
def State.writing (s : State) (m : DevMode) (l : List BusEvent) (epc : List Frame) : State :=
  { s with dev := { s.dev with mode := m }, hist := s.hist ++ l, epc := epc }

/-- A run of writes starts where none is made yet. -/
theorem OwnRun.start {epc : List Frame} (hm : s.dev.mode = m) (he : s.epc = epc)
    (h : OwnRun i n (s.writing m [] epc) t) : OwnRun i n s t := by
  subst hm he
  simpa [State.writing] using h

/-- The array, which no write changes (R25). -/
theorem State.writing_arrayByte (s : State) (m : DevMode) (l : List BusEvent) (epc : List Frame) (a : DevAddr) :
    (s.writing m l epc).arrayByte a = s.arrayByte a := rfl

theorem State.reaches_iff : s.reaches p a ↔
    toPhys? p = some (BitVec.ofNat 20 p) ∧ s.cfg.devAddr? (BitVec.ofNat 20 p) = some a := by
  refine ⟨fun ⟨q, hq, ha⟩ => ?_, fun ⟨hq, ha⟩ => ⟨_, hq, ha⟩⟩
  obtain ⟨-, rfl⟩ := toPhys?_some hq
  exact ⟨hq, ha⟩

/-- A statement of a procedure that writes to the device. -/
theorem OwnRun.write (hp : s.reaches p a) (hm : Dev.writeMode s.cfg m a v = some m')
    (hx : exec i (s.writing m l (⟨i, k⟩ :: rest)) = engWrite p v (s.writing m l (⟨i, k⟩ :: rest)) (·.goto (k + 1)))
    (ht : OwnRun i n (s.writing m' (l ++ [⟨.eng, .W, BitVec.ofNat 20 p, v⟩]) (⟨i, k + 1⟩ :: rest)) t) :
    OwnRun i (n + 1) (s.writing m l (⟨i, k⟩ :: rest)) t := by
  obtain ⟨hq, ha⟩ := State.reaches_iff.mp hp
  refine .cons rfl ?_ ht fun h => h
  rw [hx, engWrite, State.busWrite_device hq (by exact ha), State.devWrite_accepted (by exact hm)]
  simp [State.writing, State.goto, State.setMode, State.log]

/-- A cycle of a device command that writes. -/
theorem OwnRun.cycle {c : Dcw} (hc : i.cycles[k]? = some c) (hwr : c.wr = true) (hq : s.cfg.hostAddr? c.a = some q)
    (hm : Dev.writeMode s.cfg m c.a c.v = some m')
    (ht : OwnRun i n (s.writing m' (l ++ [⟨.eng, .W, q, c.v⟩])
      (if k + 1 < i.cycles.length then ⟨i, k + 1⟩ :: rest else rest)) t) :
    OwnRun i (n + 1) (s.writing m l (⟨i, k⟩ :: rest)) t := by
  have hi : i.isCommand = true := by
    simpa [Instr.isCommand] using List.ne_nil_of_mem (List.mem_of_getElem? hc)
  refine .cons rfl ?_ ht fun h => h
  rw [exec_of_isCommand hi, issueCycle_of_accepted (by exact hc) hwr (by exact hq) (by exact hm), State.afterCycle,
    State.stmt_of_epc (f := ⟨i, k⟩) rfl]
  split <;> simp [State.writing, State.goto, State.ret, State.setMode, State.log]

/-! ## SWID_ENTRY, SECTOR_ERASE, BYTE_PROGRAM -/

/-- Settles O30: three accepted cycles, the first in READ or in ID. -/
theorem swidEntryEntersId : Obligations.SwidEntryEntersId := by
  intro s h1 h2 h3 p1 p2 p3 rest he hp1 hp2 hp3 hmode
  obtain ⟨b, hfirst⟩ : ∃ b, Dev.writeMode s.cfg s.dev.mode (DevAddr.ofCommand h1 CMD_ADDR1) 0xAA = some (.u1 b) := by
    rcases hmode with hread | ⟨n, hid⟩
    · exact ⟨_, hread ▸ Dev.writeMode_read (DevAddr.offset_ofCommand ..)⟩
    · exact ⟨_, hid ▸ Dev.writeMode_id (DevAddr.offset_ofCommand ..)⟩
  exact (OwnRun.start rfl he <|
    .cycle rfl rfl hp1 hfirst <|
    .cycle rfl rfl hp2 (Dev.writeMode_u1 (DevAddr.offset_ofCommand ..)) <|
    .cycle rfl rfl hp3 (Dev.writeMode_u2_swid (DevAddr.offset_ofCommand ..)) <|
    .nil _).execN

/-- Settles O32: six accepted cycles. -/
theorem sectorEraseStartsErase : Obligations.SectorEraseStartsErase := by
  intro s h1 h2 h3 h4 h5 sec p1 p2 p3 p4 p5 p6 rest he hp1 hp2 hp3 hp4 hp5 hp6 hread
  have hconfirm := Dev.writeMode_e3 (c := s.cfg) (DevAddr.boff_ofSector sec 0)
  rw [DevAddr.sector_ofSector] at hconfirm
  exact (OwnRun.start hread he <|
    .cycle rfl rfl hp1 (Dev.writeMode_read (DevAddr.offset_ofCommand ..)) <|
    .cycle rfl rfl hp2 (Dev.writeMode_u1 (DevAddr.offset_ofCommand ..)) <|
    .cycle rfl rfl hp3 (Dev.writeMode_u2_erase (DevAddr.offset_ofCommand ..)) <|
    .cycle rfl rfl hp4 (Dev.writeMode_e1 (DevAddr.offset_ofCommand ..)) <|
    .cycle rfl rfl hp5 (Dev.writeMode_e2 (DevAddr.offset_ofCommand ..)) <|
    .cycle rfl rfl hp6 hconfirm <|
    .nil _).execN

/-- Settles O33: four accepted cycles. -/
theorem byteProgramStartsProgram : Obligations.ByteProgramStartsProgram := by
  intro s h1 h2 h3 a d p1 p2 p3 p4 rest he hp1 hp2 hp3 hp4 hread
  exact (OwnRun.start hread he <|
    .cycle rfl rfl hp1 (Dev.writeMode_read (DevAddr.offset_ofCommand ..)) <|
    .cycle rfl rfl hp2 (Dev.writeMode_u1 (DevAddr.offset_ofCommand ..)) <|
    .cycle rfl rfl hp3 (Dev.writeMode_u2_program (DevAddr.offset_ofCommand ..)) <|
    .cycle rfl rfl hp4 rfl <|
    .nil _).execN

/-! ## Polls (R137, R160, R189) -/

theorem State.busy_of_awaited (h : s.awaited = some v) : s.busy = true := by
  cases hm : s.dev.mode with
  | ebusy | pbusy => simp [State.busy, hm]
  | read | u1 | u2 | id | e1 | e2 | e3 | p1 | indet => simp [State.awaited, hm] at h

/-- POLL's read of the try (R160). -/
theorem exec_poll_read (he : s.epc = ⟨.poll p v c, 3⟩ :: rest) (hb : s.busRead .eng p = .ok x t) :
    exec (.poll p v c) s = .next ((t.setRegs fun g => { g with r := some x }).goto 4) := by
  simp [exec, execPoll, State.stmt_of_epc he, engRead, hb]

/-- A try that did not match: the poll counts it and goes on (R160). -/
theorem poll_goesOn (hlive : s.live) (he : s.epc = ⟨.poll p v c, 4⟩ :: rest) (hn : s.regs.n = some n)
    (hr : s.regs.r = some x) (hx : x ≠ v) :
    engRun 2 s = .next ((s.setRegs fun g => { g with n := some (n + 1) }).goto 2) := by
  obtain ⟨hfaults, hexit, hhalted⟩ := hlive
  simp [engRun, engStep, State.ended, exec, execPoll, State.stmt, State.goto, State.setRegs, *]

/-- A poll's read of a busy device is a status read: a draw, and the device stays as it is (R137). -/
theorem State.busRead_of_busy {ag : Agent} (hreach : s.reaches p a) (hbusy : s.busy = true) :
    s.busRead ag p = .ok s.fresh (s.drawn.log ⟨ag, .R, BitVec.ofNat 20 p, s.fresh⟩) := by
  obtain ⟨hq, ha⟩ := State.reaches_iff.mp hreach
  rw [State.busRead_device hq ha, State.devRead_draw (State.readAnswer_of_busy hbusy a), State.setMode_self rfl]

/-- Settles O39: the try's byte is the draw of a status read, which the assumption keeps from the awaited byte. -/
theorem busyPollDoesNotMatch : Obligations.BusyPollDoesNotMatch := by
  intro s p v c a n rest hlive hmove he hreach hn hawaited
  have ha : s.cfg.devAddr? (BitVec.ofNat 20 p) ≠ none := by simp [(State.reaches_iff.mp hreach).2]
  have hbusy : s.moveTaken.busy = true := by simpa [State.busy] using State.busy_of_awaited hawaited
  have hread := State.busRead_of_busy (ag := .eng) (s := s.moveTaken) (by simpa [State.reaches] using hreach) hbusy
  have hstep := (stepExecutesTopFrame s _ _ hlive hmove he).trans (exec_poll_read (by simpa using he) hread)
  refine ⟨_, s.moveTaken.fresh, hstep, by simp, by simp, fun hno => ?_⟩
  have hx : s.moveTaken.fresh ≠ v :=
    hno ⟨.eng, .R, BitVec.ofNat 20 p, s.moveTaken.fresh⟩ v (by simp) rfl ha hawaited
  refine ⟨hx, _, poll_goesOn (p := p) (n := n) (c := c) (rest := rest) ?_ ?_ ?_ rfl hx, ?_⟩
  · simpa [State.live] using hlive
  · simp [State.goto_epc, he]
  · simpa using hn
  · simp [State.goto_epc, he]

/-! ## Polls that match at once (R160, R164, R165) -/

theorem engRun_add (h : engRun n s = .next t) : engRun (n + k) s = engRun k t := by
  induction n generalizing s with
  | zero => cases h; rw [Nat.zero_add]
  | succ n ih =>
    rw [Nat.succ_add]
    simp only [engRun] at h ⊢
    split at h
    · cases h
    · split at h
      · exact ih h
      · cases h
      · cases h

/-- ENG returns from `s` to `rest` with PR = 1, and on the way writes nothing but registers, HIST and EPC. -/
def ReturnsTrue (s : State) (rest : List Frame) : Prop :=
  ∃ n hist g, engRun n s = .next { s with hist := hist, regs := g, epc := rest } ∧ g.PR = some true

theorem ReturnsTrue.after {hist : List BusEvent} {g : Regs} {epc : List Frame}
    (h : engRun k s = .next { s with hist := hist, regs := g, epc := epc })
    (hret : ReturnsTrue { s with hist := hist, regs := g, epc := epc } rest) : ReturnsTrue s rest :=
  let ⟨n, hist', g', hrun, hPR⟩ := hret
  ⟨k + n, hist', g', (engRun_add h).trans hrun, hPR⟩

/-- The return to a caller that goes on from there. -/
theorem ReturnsTrue.andThen {epc : List Frame} (h : ReturnsTrue s epc)
    (hret : ∀ hist g, g.PR = some true → ReturnsTrue { s with hist := hist, regs := g, epc := epc } rest) :
    ReturnsTrue s rest :=
  let ⟨_, hist, g, hrun, hPR⟩ := h
  .after hrun (hret hist g hPR)

/-- The entry of a poll that may read (R160). -/
theorem poll_start (hlive : s.live) (he : s.epc = ⟨.poll p v c, 0⟩ :: rest) (hc : 0 < pollBound s.cfg c) :
    engRun 3 s = .next { s with regs := { s.regs with nMax := some (pollBound s.cfg c), n := some 0 },
                                epc := ⟨.poll p v c, 3⟩ :: rest } := by
  obtain ⟨hfaults, hexit, hhalted⟩ := hlive
  simp [engRun, engStep, State.ended, exec, execPoll, State.stmt, State.goto, State.setRegs, *]

/-- A try in READ reads the array (R123, R160). -/
theorem poll_tryArray (hlive : s.live) (he : s.epc = ⟨.poll p v c, 3⟩ :: rest) (hreach : s.reaches p a)
    (hm : s.dev.mode = .read) :
    engRun 1 s = .next { s with hist := s.hist ++ [⟨.eng, .R, BitVec.ofNat 20 p, s.arrayByte a⟩],
                                regs := { s.regs with r := some (s.arrayByte a) },
                                epc := ⟨.poll p v c, 4⟩ :: rest } := by
  obtain ⟨hq, ha⟩ := State.reaches_iff.mp hreach
  have hx := exec_poll_read he ((State.busRead_device hq ha).trans (State.devRead_read hm))
  rw [engRun_succ hlive he hx]
  simp [engRun, State.goto, State.setRegs, State.log, he]

/-- A try that matched: the poll counts it and returns TRUE (R160). -/
theorem poll_matches (hlive : s.live) (he : s.epc = ⟨.poll p v c, 4⟩ :: rest) (hn : s.regs.n = some n)
    (hr : s.regs.r = some v) :
    engRun 4 s = .next { s with regs := { s.regs with n := some (n + 1), PR := some true }, epc := rest } := by
  obtain ⟨hfaults, hexit, hhalted⟩ := hlive
  simp [engRun, engStep, State.ended, exec, execPoll, State.stmt, State.goto, State.setRegs, State.ret, *]

/-- In READ a poll for the byte that the array holds returns TRUE at its first try. -/
theorem poll_returnsTrue (hlive : s.live) (he : s.epc = ⟨.poll p v c, 0⟩ :: rest) (hc : 0 < pollBound s.cfg c)
    (hreach : s.reaches p a) (hm : s.dev.mode = .read) (hv : s.arrayByte a = v) : ReturnsTrue s rest :=
  .after (poll_start hlive he hc) <| .after (poll_tryArray (by exact hlive) rfl (by exact hreach) hm) <|
    ⟨4, _, _, poll_matches (by exact hlive) rfl rfl (congrArg some hv), rfl⟩

/-- WAIT_PROGRAM calls its one poll (R164). -/
theorem waitProgram_start {T : Count} (hlive : s.live) (he : s.epc = ⟨.waitProgram p v, 0⟩ :: rest)
    (hT : s.regs.T = some T) :
    engRun 1 s = .next { s with epc := ⟨.poll p v T, 0⟩ :: ⟨.waitProgram p v, 1⟩ :: rest } := by
  obtain ⟨hfaults, hexit, hhalted⟩ := hlive
  simp [engRun, engStep, State.ended, exec, execWaitProgram, State.stmt, State.goto, State.call, *]

theorem waitProgram_return (hlive : s.live) (he : s.epc = ⟨.waitProgram p v, 1⟩ :: rest) :
    engRun 1 s = .next { s with epc := rest } := by
  obtain ⟨hfaults, hexit, hhalted⟩ := hlive
  simp [engRun, engStep, State.ended, exec, execWaitProgram, State.stmt, State.ret, *]

theorem waitProgram_returnsTrue {T : Count} (hlive : s.live) (he : s.epc = ⟨.waitProgram p v, 0⟩ :: rest)
    (hT : s.regs.T = some T) (hc : 0 < pollBound s.cfg T) (hreach : s.reaches p a) (hm : s.dev.mode = .read)
    (hv : s.arrayByte a = v) : ReturnsTrue s rest := by
  have hpoll : ReturnsTrue s (⟨.waitProgram p v, 1⟩ :: rest) :=
    .after (waitProgram_start hlive he hT) <|
      poll_returnsTrue (by exact hlive) rfl hc (by exact hreach) hm (by exact hv)
  exact hpoll.andThen fun hist g hPR => ⟨1, _, _, waitProgram_return (by exact hlive) rfl, hPR⟩

/-- WAIT_ERASE calls its first poll (R165). -/
theorem waitErase_start {T : Count} (hlive : s.live) (he : s.epc = ⟨.waitErase p, 0⟩ :: rest)
    (hT : s.regs.T = some T) :
    engRun 3 s = .next { s with regs := { s.regs with j := some 0 },
                                epc := ⟨.poll p 0xFF T, 0⟩ :: ⟨.waitErase p, 3⟩ :: rest } := by
  obtain ⟨hfaults, hexit, hhalted⟩ := hlive
  simp [engRun, engStep, State.ended, exec, execWaitErase, State.stmt, State.goto, State.setRegs, State.call, *]

/-- A poll that matched ends WAIT_ERASE (R165). -/
theorem waitErase_return (hlive : s.live) (he : s.epc = ⟨.waitErase p, 3⟩ :: rest) (hPR : s.regs.PR = some true) :
    engRun 3 s = .next { s with regs := { s.regs with PR := some true }, epc := rest } := by
  obtain ⟨hfaults, hexit, hhalted⟩ := hlive
  simp [engRun, engStep, State.ended, exec, execWaitErase, State.stmt, State.goto, State.setRegs, State.ret, *]

theorem waitErase_returnsTrue {T : Count} (hlive : s.live) (he : s.epc = ⟨.waitErase p, 0⟩ :: rest)
    (hT : s.regs.T = some T) (hc : 0 < pollBound s.cfg T) (hreach : s.reaches p a) (hm : s.dev.mode = .read)
    (hv : s.arrayByte a = 0xFF) : ReturnsTrue s rest := by
  have hpoll : ReturnsTrue s (⟨.waitErase p, 3⟩ :: rest) :=
    .after (waitErase_start hlive he hT) <|
      poll_returnsTrue (by exact hlive) rfl hc (by exact hreach) hm (by exact hv)
  exact hpoll.andThen fun hist g hPR => ⟨3, _, _, waitErase_return (by exact hlive) rfl hPR, rfl⟩

/-! ## ERASE_SECTOR and PROGRAM_BYTE (R184, R185) -/

variable {S : Operand Seg} {S' : Seg} {z : Nat}

/-- The writes of ERASE_SECTOR, one a statement, each with its address (R184). -/
def eraseWrites (S' : Seg) (p : Nat) : List (Nat × Byte) :=
  [(unlock1 S', 0xAA), (unlock2 S', 0x55), (unlock1 S', 0x80), (unlock1 S', 0xAA), (unlock2 S', 0x55), (p, 0x30)]

/-- The writes of PROGRAM_BYTE (R185). -/
def programWrites (S' : Seg) (p : Nat) (v : Byte) : List (Nat × Byte) :=
  [(unlock1 S', 0xAA), (unlock2 S', 0x55), (unlock1 S', 0xA0), (p, v)]

/-- The entries that writes of the engine leave in HIST. -/
def writeEvents (ws : List (Nat × Byte)) : List BusEvent := ws.map fun w => ⟨.eng, .W, BitVec.ofNat 20 w.1, w.2⟩

theorem exec_eraseSector_write (hS : operand? S s.regs.S = some S') (hIF : s.IF = false) (hk : s.stmt = k)
    (hw : (eraseWrites S' p)[k]? = some (z, x)) :
    exec (.eraseSector S p) s = engWrite z x s (·.goto (k + 1)) := by
  match k, hw with
  | 0, hw | 1, hw | 2, hw | 3, hw | 4, hw | 5, hw =>
    cases hw
    simp [exec, execEraseSector, hk, hS, engFirstWrite, hIF]

theorem exec_programByte_write (hS : operand? S s.regs.S = some S') (hIF : s.IF = false) (hk : s.stmt = k)
    (hw : (programWrites S' p v)[k]? = some (z, x)) :
    exec (.programByte S p v) s = engWrite z x s (·.goto (k + 1)) := by
  match k, hw with
  | 0, hw | 1, hw | 2, hw | 3, hw =>
    cases hw
    simp [exec, execProgramByte, hk, hS, engFirstWrite, hIF]

/-- ERASE_SECTOR from READ up to its call of WAIT_ERASE (R184). -/
theorem eraseSector_ownRun (he : s.epc = ⟨.eraseSector S p, 0⟩ :: rest) (hIF : s.IF = false)
    (hread : s.dev.mode = .read) (hS : operand? S s.regs.S = some S') (hwindow : s.window S') (hp : s.reaches p a)
    (ha : DevAddr.boff a = 0) :
    OwnRun (.eraseSector S p) 7 s (s.writing (.ebusy (DevAddr.sector a)) (writeEvents (eraseWrites S' p))
      (⟨.waitErase p, 0⟩ :: ⟨.eraseSector S p, 7⟩ :: rest)) := by
  obtain ⟨⟨a1, h1, ho1⟩, ⟨a2, h2, ho2⟩⟩ := hwindow
  have hx {m l k z x} := exec_eraseSector_write (s := s.writing m l (⟨.eraseSector S p, k⟩ :: rest)) (p := p) (k := k)
    (z := z) (x := x) hS hIF rfl
  exact .start hread he <|
    .write h1 (Dev.writeMode_read ho1) (hx rfl) <|
    .write h2 (Dev.writeMode_u1 ho2) (hx rfl) <|
    .write h1 (Dev.writeMode_u2_erase ho1) (hx rfl) <|
    .write h1 (Dev.writeMode_e1 ho1) (hx rfl) <|
    .write h2 (Dev.writeMode_e2 ho2) (hx rfl) <|
    .write hp (Dev.writeMode_e3 ha) (hx rfl) <|
    .cons rfl rfl (.nil _) fun h => h

/-- PROGRAM_BYTE from READ up to its call of WAIT_PROGRAM (R185). -/
theorem programByte_ownRun (he : s.epc = ⟨.programByte S p v, 0⟩ :: rest) (hIF : s.IF = false)
    (hread : s.dev.mode = .read) (hS : operand? S s.regs.S = some S') (hwindow : s.window S') (hp : s.reaches p a) :
    OwnRun (.programByte S p v) 5 s (s.writing (.pbusy a v) (writeEvents (programWrites S' p v))
      (⟨.waitProgram p v, 0⟩ :: ⟨.programByte S p v, 5⟩ :: rest)) := by
  obtain ⟨⟨a1, h1, ho1⟩, ⟨a2, h2, ho2⟩⟩ := hwindow
  have hx {m l k z x} := exec_programByte_write (s := s.writing m l (⟨.programByte S p v, k⟩ :: rest)) (p := p) (v := v)
    (k := k) (z := z) (x := x) hS hIF rfl
  exact .start hread he <|
    .write h1 (Dev.writeMode_read ho1) (hx rfl) <|
    .write h2 (Dev.writeMode_u1 ho2) (hx rfl) <|
    .write h1 (Dev.writeMode_u2_program ho1) (hx rfl) <|
    .write hp rfl (hx rfl) <|
    .cons rfl rfl (.nil _) fun h => h

theorem exec_eraseSector_return (he : s.epc = ⟨.eraseSector S p, 7⟩ :: rest) :
    exec (.eraseSector S p) s = .next { s with epc := rest } := by
  simp [exec, execEraseSector, State.stmt_of_epc he, State.ret, he]

theorem exec_programByte_return (he : s.epc = ⟨.programByte S p v, 5⟩ :: rest) :
    exec (.programByte S p v) s = .next { s with epc := rest } := by
  simp [exec, execProgramByte, State.stmt_of_epc he, State.ret, he]

/-! ### The completion before the first poll read -/

theorem movesRun_eng {ms : List Move} (h : engRun n s = .next t) :
    movesRun (List.replicate n .eng ++ ms) s = movesRun ms t := by
  induction n generalizing s with
  | zero => cases h; rfl
  | succ n ih =>
    simp only [engRun] at h
    simp only [List.replicate_succ, List.cons_append, movesRun, agentStep]
    split at h
    · cases h
    · split at h
      · exact ih h
      · cases h
      · cases h

/-- The device completes after a run of the engine, which then returns with PR = 1. -/
theorem movesRun_complete (hrun : OwnRun i k s u) (hlive : s.live) (hu : u.faults = [])
    (hret : ReturnsTrue u.complete rest) :
    ∃ n hist g, movesRun (List.replicate k .eng ++ .dev :: List.replicate n .eng) s =
      .next { u.complete with hist := hist, regs := g, epc := rest } ∧ g.PR = some true := by
  obtain ⟨n, hist, g, hn, hPR⟩ := hret
  refine ⟨n, hist, g, ?_, hPR⟩
  have hwait := movesRun_eng (ms := []) hn
  rw [List.append_nil] at hwait
  rw [movesRun_eng (hrun.engRun hlive)]
  simpa [movesRun, hu, agentStep] using hwait

/-- The completion of the erase that WAIT_ERASE waits for lets it and ERASE_SECTOR return TRUE (R138, R165, R184). -/
theorem eraseSector_completes {T : Count} (hlive : s.live)
    (he : s.epc = ⟨.waitErase p, 0⟩ :: ⟨.eraseSector S p, 7⟩ :: rest) (hT : s.regs.T = some T)
    (hc : 0 < pollBound s.cfg T) (hreach : s.reaches p a) (hm : s.dev.mode = .ebusy (DevAddr.sector a)) :
    ReturnsTrue s.complete rest := by
  have hv : s.complete.arrayByte a = 0xFF := (State.arrayByte_complete_of_ebusy hm a).trans (if_pos rfl)
  rw [State.complete_of_ebusy hm] at hv ⊢
  have hwait := waitErase_returnsTrue (by exact hlive) (by exact he) (by exact hT) (by exact hc) (by exact hreach)
    (by rfl) hv
  refine hwait.andThen fun _ _ hPR => ?_
  exact ⟨1, _, _, engRun_succ (by exact hlive) rfl (exec_eraseSector_return rfl) 0, hPR⟩

/-- The completion of the program that WAIT_PROGRAM waits for lets it and PROGRAM_BYTE return TRUE, where PROG gives
the byte asked for (R140, R164, R185). -/
theorem programByte_completes {T : Count} (hlive : s.live)
    (he : s.epc = ⟨.waitProgram p v, 0⟩ :: ⟨.programByte S p v, 5⟩ :: rest) (hT : s.regs.T = some T)
    (hc : 0 < pollBound s.cfg T) (hreach : s.reaches p a) (hm : s.dev.mode = .pbusy a v)
    (hprog : prog (s.arrayByte a) v = v) : ReturnsTrue s.complete rest := by
  have hv : s.complete.arrayByte a = v := by rw [State.arrayByte_complete_of_pbusy hm, if_pos rfl, hprog]
  rw [State.complete_of_pbusy hm] at hv ⊢
  have hwait := waitProgram_returnsTrue (by exact hlive) (by exact he) (by exact hT) (by exact hc) (by exact hreach)
    (by rfl) hv
  refine hwait.andThen fun _ _ hPR => ?_
  exact ⟨1, _, _, engRun_succ (by exact hlive) rfl (exec_programByte_return rfl) 0, hPR⟩

/-- Settles O43: the six writes and the call, then the completion, which the first poll sees. -/
theorem eraseSectorErases : Obligations.EraseSectorErases := by
  intro s S p rest
  refine ⟨fun S' a he hIF hread hS hwindow hp ha => ?_, exec_eraseSector_return⟩
  have hrun := eraseSector_ownRun he hIF hread hS hwindow hp ha
  refine ⟨hrun.execN, fun T hlive hT hc => ?_⟩
  obtain ⟨n, hist, g, hn, hPR⟩ := movesRun_complete hrun hlive hlive.1 <|
    eraseSector_completes (by exact hlive) rfl hT hc hp rfl
  exact ⟨n, _, hn, rfl, hPR, rfl, hlive.1, hIF, State.arrayByte_complete_of_ebusy rfl⟩

/-- Settles O44: the four writes and the call, then the completion, which the poll sees. -/
theorem programBytePrograms : Obligations.ProgramBytePrograms := by
  intro s S p v rest
  refine ⟨fun S' a he hIF hread hS hwindow hp => ?_, exec_programByte_return⟩
  have hrun := programByte_ownRun he hIF hread hS hwindow hp
  refine ⟨hrun.execN, fun T hlive hT hc hprog => ?_⟩
  obtain ⟨n, hist, g, hn, hPR⟩ := movesRun_complete hrun hlive hlive.1 <|
    programByte_completes (by exact hlive) rfl hT hc hp rfl hprog
  refine ⟨n, _, hn, rfl, hPR, rfl, hlive.1, hIF, fun x => ?_⟩
  exact (State.arrayByte_complete_of_pbusy rfl x).trans (by simp only [State.writing_arrayByte, hprog])

end Machine

end Sys2Proof
end

section
/-! PROOFS. The timing arbiter: POLL (R160), CAL (R162, R167), WAIT_PROGRAM (R164) and WAIT_ERASE (R165). What a poll
has read is said once (`Polled`), for one try, for several in a row, and for several polls in a row. -/

namespace Sys2Proof

namespace Machine

variable {s t u : State} {i : Instr} {Q R : State → Prop} {l l' : List BusEvent} {g g' : Regs}
  {e e' rest : List Frame} {p k k' n N c : Nat} {x : Byte} {ok : Bool}

/-! ## Runs of the engine -/

/-- Some number of statements of `i`, each with a frame of `i` on top, leads from `s` to a state of which `Q` holds. -/
def OwnLeads (i : Instr) (s : State) (Q : State → Prop) : Prop := ∃ n t, OwnRun i n s t ∧ Q t

/-- Some number of ENG's steps leads from `s` to a state of which `Q` holds. -/
def EngLeads (s : State) (Q : State → Prop) : Prop := ∃ n t, engRun n s = .next t ∧ Q t

theorem OwnLeads.here (h : Q s) : OwnLeads i s Q := ⟨0, s, .nil s, h⟩

theorem OwnRun.andThen (h : OwnRun i n s t) (ht : OwnLeads i t Q) : OwnLeads i s Q := by
  induction h with
  | nil => exact ht
  | cons he hx _ hl ih =>
    obtain ⟨m, u, hm, hu⟩ := ih ht
    exact ⟨m + 1, u, .cons he hx hm hl, hu⟩

theorem OwnLeads.bind (h : OwnLeads i s Q) (hQ : ∀ t, Q t → OwnLeads i t R) : OwnLeads i s R :=
  let ⟨_, t, hrun, ht⟩ := h
  hrun.andThen (hQ t ht)

theorem EngLeads.here (h : Q s) : EngLeads s Q := ⟨0, s, rfl, h⟩

theorem EngLeads.after (h : engRun n s = .next t) (ht : EngLeads t Q) : EngLeads s Q :=
  let ⟨m, u, hm, hu⟩ := ht
  ⟨n + m, u, (engRun_add h).trans hm, hu⟩

theorem EngLeads.bind (h : EngLeads s Q) (hQ : ∀ t, Q t → EngLeads t R) : EngLeads s R :=
  let ⟨_, t, hrun, ht⟩ := h
  .after hrun (hQ t ht)

theorem OwnLeads.engLeads (h : OwnLeads i s Q) (hlive : s.live) : EngLeads s Q :=
  let ⟨n, t, hrun, ht⟩ := h
  ⟨n, t, hrun.engRun hlive, ht⟩

/-! ## What reads leave -/

theorem Seen.epc (h : Seen s l g e t) : t.epc = e := by obtain ⟨m, draws, -, rfl⟩ := h; rfl

theorem Seen.hist (h : Seen s l g e t) : t.hist = s.hist ++ l := by obtain ⟨m, draws, -, rfl⟩ := h; rfl

theorem Seen.faults (h : Seen s l g e t) : t.faults = s.faults := by obtain ⟨m, draws, -, rfl⟩ := h; rfl

theorem Seen.IF (h : Seen s l g e t) : t.IF = s.IF := by obtain ⟨m, draws, -, rfl⟩ := h; rfl

theorem Seen.array (h : Seen s l g e t) : t.dev.array = s.dev.array := by obtain ⟨m, draws, -, rfl⟩ := h; rfl

theorem Seen.cfg (h : Seen s l g e t) : t.cfg = s.cfg := by obtain ⟨m, draws, -, rfl⟩ := h; rfl

theorem Seen.tick (h : Seen s l g e t) : t.tick = s.tick := by obtain ⟨m, draws, -, rfl⟩ := h; rfl

theorem Seen.live (h : Seen s l g e t) (hlive : s.live) : t.live := by obtain ⟨m, draws, -, rfl⟩ := h; exact hlive

/-- The registers and EPC are written on. -/
theorem Seen.set (h : Seen s l g e t) : Seen s l g' e' { t with regs := g', epc := e' } := by
  obtain ⟨m, draws, hm, rfl⟩ := h
  exact ⟨m, draws, hm, rfl⟩

/-- A run between reads, which no mode and no count of draws can change. -/
theorem Seen.own (h : Seen s l g e u)
    (hx : ∀ m draws, OwnRun i n (s.reading m draws l g e) (s.reading m draws l g' e')) :
    OwnLeads i u (Seen s l g' e') := by
  obtain ⟨m, draws, hm, rfl⟩ := h
  exact ⟨n, _, hx m draws, m, draws, hm, rfl⟩

/-- A statement that reads a readable place, writes registers by `f`, and moves on. -/
theorem Seen.ownRead {f : Byte → Regs → Regs} (h : Seen s l g (⟨i, k⟩ :: rest) u) (hp : s.readable p)
    (hx : exec i u = engRead p u fun x t => (t.setRegs (f x)).goto k') :
    ∃ x t, OwnRun i 1 u t ∧ (∀ y, s.shows p y → x = y) ∧
      Seen s (l ++ [⟨.eng, .R, BitVec.ofNat 20 p, x⟩]) (f x g) (⟨i, k'⟩ :: rest) t := by
  obtain ⟨x, v, hb, hv⟩ := State.busRead_of_readable h hp
  refine ⟨x, _, .cons h.epc (hx.trans (by rw [engRead, hb])) (.nil _) fun hlive => ?_,
    fun y hy => State.busRead_of_shows h hy hb, (hv.setRegs (f x)).goto k'⟩
  obtain ⟨hframe, hfaults, -⟩ := State.busRead_ok hb
  obtain ⟨hf, he, hh⟩ := hlive
  exact ⟨hfaults.trans hf, hframe.exit.trans he, hframe.halted.trans hh⟩

/-! ## What a poll has read (R160) -/

/-- `l` are at most `N` reads of `p`, up to the first that gave `v`; with `ok` false there are `N` and none did. -/
structure Polled (p : Nat) (v : Byte) (N : Nat) (ok : Bool) (l : List BusEvent) : Prop where
  reads : readsOf p l
  length_le : l.length ≤ N
  ends : (ok = true ∧ ∃ l' e, l = l' ++ [e] ∧ e.value = v ∧ ∀ x ∈ l', x.value ≠ v) ∨
    (ok = false ∧ l.length = N ∧ ∀ x ∈ l, x.value ≠ v)

theorem Polled.nil (p : Nat) (v : Byte) : Polled p v 0 false [] := ⟨by simp [readsOf], le_rfl, by simp⟩

/-- One read. -/
theorem Polled.one {v : Byte} (hp : s.readable p) : Polled p v 1 (x == v) [⟨.eng, .R, BitVec.ofNat 20 p, x⟩] := by
  obtain ⟨q, hq, -⟩ := hp
  obtain ⟨hlt, -⟩ := toPhys?_some hq
  refine ⟨by simpa [readsOf] using Nat.mod_eq_of_lt hlt, le_rfl, ?_⟩
  by_cases hx : x = v
  · exact .inl ⟨by simp [hx], [], _, rfl, hx, by simp⟩
  · exact .inr ⟨by simp [hx], rfl, by simp [hx]⟩

/-- Reads after reads that did not match. -/
theorem Polled.append {v : Byte} (h : Polled p v n false l) (h' : Polled p v N ok l') :
    Polled p v (n + N) ok (l ++ l') := by
  obtain ⟨hreads, -, hmiss⟩ := h
  obtain ⟨hreads', hle', hmatch' | hmiss'⟩ := h'
  all_goals obtain ⟨-, hlen, hne⟩ := hmiss.resolve_left (by simp)
  all_goals refine ⟨List.forall_mem_append.mpr ⟨hreads, hreads'⟩, by simp only [List.length_append]; omega, ?_⟩
  · obtain ⟨hok, l₀, e, rfl, he, hne'⟩ := hmatch'
    exact .inl ⟨hok, l ++ l₀, e, (List.append_assoc ..).symm, he, List.forall_mem_append.mpr ⟨hne, hne'⟩⟩
  · obtain ⟨hok, hlen', hne'⟩ := hmiss'
    exact .inr ⟨hok, by simp only [List.length_append]; omega, List.forall_mem_append.mpr ⟨hne, hne'⟩⟩

/-- A match within a bound is one within a larger bound. -/
theorem Polled.mono {v : Byte} (h : Polled p v n true l) (hn : n ≤ N) : Polled p v N true l := by
  obtain ⟨hreads, hle, hmatch | hmiss⟩ := h
  · exact ⟨hreads, hle.trans hn, .inl hmatch⟩
  · exact absurd hmiss.1 (by simp)

/-- The result of the reads, in the register that holds it (R160). -/
theorem Polled.result {v : Byte} {PR : Option Bool} (h : Polled p v N ok l) (hPR : PR = some ok) :
    (PR = some true ∧ ∃ l' e, l = l' ++ [e] ∧ e.value = v ∧ ∀ x ∈ l', x.value ≠ v) ∨
      (PR = some false ∧ l.length = N ∧ ∀ x ∈ l, x.value ≠ v) :=
  h.ends.imp (And.imp_left fun hok => hPR.trans (congrArg some hok))
    (And.imp_left fun hok => hPR.trans (congrArg some hok))

/-! ## POLL (R160) -/

/-- The registers with those that POLL writes replaced (R31, R160). -/
def Regs.polled (g : Regs) (PR : Option Bool) (n nMax : Option Nat) (r : Option Byte) : Regs :=
  { g with PR := PR, n := n, nMax := nMax, r := r }

section Poll

variable {w : Byte} {K : Count} {l₀ : List BusEvent} {PR : Option Bool} {r : Option Byte}

/-- POLL's entry (R160). -/
theorem poll_enter (h : Seen s l g (⟨.poll p w K, 0⟩ :: rest) u) : OwnLeads (.poll p w K) u
    (Seen s l (g.polled g.PR (some 0) (some (pollBound s.cfg K)) g.r) (⟨.poll p w K, 2⟩ :: rest)) :=
  h.own fun _ _ => .cons rfl rfl (.cons rfl rfl (.nil _) id) id

/-- POLL's loop test (R160). -/
theorem poll_test (h : Seen s l (g.polled PR (some c) (some N) r) (⟨.poll p w K, 2⟩ :: rest) u) :
    OwnLeads (.poll p w K) u
      (Seen s l (g.polled PR (some c) (some N) r) (⟨.poll p w K, if c < N then 3 else 8⟩ :: rest)) :=
  h.own fun _ _ => .cons rfl rfl (.nil _) id

/-- POLL counts a try and compares its byte (R160). -/
theorem poll_compare (h : Seen s l (g.polled PR (some c) (some N) (some x)) (⟨.poll p w K, 4⟩ :: rest) u) :
    OwnLeads (.poll p w K) u
      (Seen s l (g.polled PR (some (c + 1)) (some N) (some x)) (⟨.poll p w K, if x = w then 6 else 2⟩ :: rest)) :=
  h.own fun _ _ => .cons rfl rfl (.cons rfl rfl (.nil _) id) id

/-- POLL's two returns (R160). -/
theorem poll_return {nMax : Option Nat} {m : Option Nat} (ok : Bool)
    (h : Seen s l (g.polled PR m nMax r) (⟨.poll p w K, if ok then 6 else 8⟩ :: rest) u) :
    OwnLeads (.poll p w K) u (Seen s l (g.polled (some ok) m nMax r) rest) := by
  cases ok <;> exact h.own fun _ _ => .cons rfl rfl (.cons rfl rfl (.nil _) id) id

/-- One try: a read, counted and compared (R160). -/
theorem poll_try (hp : s.readable p)
    (h : Seen s l (g.polled PR (some c) (some N) r) (⟨.poll p w K, 3⟩ :: rest) u) :
    OwnLeads (.poll p w K) u fun t => ∃ x, Polled p w 1 (x == w) [⟨.eng, .R, BitVec.ofNat 20 p, x⟩] ∧
      Seen s (l ++ [⟨.eng, .R, BitVec.ofNat 20 p, x⟩]) (g.polled PR (some (c + 1)) (some N) (some x))
        (⟨.poll p w K, if x = w then 6 else 2⟩ :: rest) t := by
  obtain ⟨x, v, hrun, -, hv⟩ := h.ownRead hp (k' := 4) (f := fun x g => { g with r := some x }) <| by
    simp [exec, execPoll, h.stmt]
  exact hrun.andThen <| (poll_compare hv).bind fun t ht => .here ⟨x, .one hp, ht⟩

/-- POLL has returned to `rest` after the reads `l`, made behind the entries `l₀`, with at most `N` tries. -/
def PollEnds (s : State) (p : Nat) (w : Byte) (N : Nat) (l₀ : List BusEvent) (g : Regs) (rest : List Frame)
    (t : State) : Prop :=
  ∃ ok l n r, Polled p w N ok l ∧ Seen s (l₀ ++ l) (g.polled (some ok) n (some N) r) rest t

/-- POLL's loop after `c` tries without a match, by induction on the number of tries left (R160). -/
theorem poll_loop {left : Nat} (hp : s.readable p) (hc : c + left = N) (hl : Polled p w c false l)
    (h : Seen s (l₀ ++ l) (g.polled PR (some c) (some N) r) (⟨.poll p w K, 2⟩ :: rest) u) :
    OwnLeads (.poll p w K) u (PollEnds s p w N l₀ g rest) := by
  induction left generalizing c l r u with
  | zero =>
    obtain rfl : c = N := hc
    refine (poll_test h).bind fun v hv => ?_
    rw [if_neg (lt_irrefl c)] at hv
    exact (poll_return false hv).bind fun t ht => .here ⟨false, l, _, _, hl, ht⟩
  | succ left ih =>
    refine (poll_test h).bind fun v hv => ?_
    rw [if_pos (by omega)] at hv
    refine (poll_try hp hv).bind fun t ⟨x, hx, ht⟩ => ?_
    have hl' := hl.append hx
    rw [List.append_assoc] at ht
    by_cases hxw : x = w
    · rw [if_pos hxw] at ht
      rw [beq_iff_eq.mpr hxw] at hl'
      exact (poll_return true ht).bind fun t' ht' => .here ⟨true, _, _, _, hl'.mono (by omega), ht'⟩
    · rw [if_neg hxw] at ht
      rw [beq_eq_false_iff_ne.mpr hxw] at hl'
      exact ih (by omega) hl' ht

/-- The whole of POLL (R160). -/
theorem poll_ends (hp : s.readable p) (h : Seen s l₀ g (⟨.poll p w K, 0⟩ :: rest) u) :
    OwnLeads (.poll p w K) u (PollEnds s p w (pollBound s.cfg K) l₀ g rest) :=
  (poll_enter h).bind fun v hv =>
    poll_loop hp (Nat.zero_add _) (.nil p w) (by rwa [List.append_nil])

end Poll

/-- POLL's bound, with POLL_ZERO written out (R160). -/
theorem pollBound_eq (c : Config) (K : Count) :
    pollBound c K = if K = 0 then (if c.pollZero = .wrap then 65536 else 0) else K.toNat := by
  unfold pollBound
  cases c.pollZero <;> rfl

/-- Settles O34: the loop, by induction on the tries left, and then one of the two returns. -/
theorem pollIsBounded : Obligations.PollIsBounded := by
  intro s p w K rest he hp
  obtain ⟨m, t, hrun, ok, l, n, r, hl, ht⟩ := poll_ends hp (he ▸ Seen.refl s)
  rw [pollBound_eq] at hl
  refine ⟨m, t, l, hrun.execN, ht.epc, ht.hist, hl.reads, hl.length_le, ?_, ht.faults, ht.IF, ht.array,
    by rw [ht.regs]; rfl⟩
  exact (hl.result (congrArg Regs.PR ht.regs)).imp_right fun ⟨hPR, hlen, hne⟩ => ⟨hPR, hne, hlen⟩

/-! ## WAIT_PROGRAM (R164) -/

theorem exec_waitProgram_call {w : Byte} {T : Count} (he : s.epc = ⟨.waitProgram p w, 0⟩ :: rest)
    (hT : s.regs.T = some T) : exec (.waitProgram p w) s =
      .next { s with epc := ⟨.poll p w T, 0⟩ :: ⟨.waitProgram p w, 1⟩ :: rest } := by
  simp [exec, execWaitProgram, State.stmt, State.call, State.goto, he, hT]

/-- Settles O37: the call, the poll for T, and the return of its result. -/
theorem waitProgramIsOneUnit : Obligations.WaitProgramIsOneUnit := by
  intro s p w T rest he hlive hT hp
  refine ⟨exec_waitProgram_call he hT, ?_⟩
  have hstart := (Seen.refl s).set (g' := s.regs) (e' := ⟨.poll p w T, 0⟩ :: ⟨.waitProgram p w, 1⟩ :: rest)
  have hends : EngLeads s (PollEnds s p w (pollBound s.cfg T) [] s.regs rest) := by
    refine .after (waitProgram_start hlive he hT) <| ((poll_ends hp hstart).engLeads (by exact hlive)).bind ?_
    rintro t ⟨ok, l, n, r, hl, ht⟩
    exact .after (waitProgram_return (ht.live hlive) ht.epc) (.here ⟨ok, l, n, r, hl, by rw [← ht.regs]; exact ht.set⟩)
  obtain ⟨m, t, hrun, ok, l, n, r, hl, ht⟩ := hends
  exact ⟨m, t, l, hrun, ht.epc, ht.hist, hl.reads, hl.length_le, hl.result (congrArg Regs.PR ht.regs),
    ht.faults.trans hlive.1, ht.IF, by rw [ht.regs]; rfl, ht.array⟩

/-! ## WAIT_ERASE (R165) -/

section WaitErase

variable {T : Count} {j : Nat}

/-- WAIT_ERASE's unit `j` calls its poll (R165). -/
theorem waitErase_unit (h : Seen s l g (⟨.waitErase p, 1⟩ :: rest) u) (hj : g.j = some j) (hlt : j < ERASE_UNITS)
    (hT : g.T = some T) :
    OwnLeads (.waitErase p) u (Seen s l g (⟨.poll p 0xFF T, 0⟩ :: ⟨.waitErase p, 3⟩ :: rest)) := by
  refine h.own fun m draws => .cons (t := s.reading m draws l g (⟨.waitErase p, 2⟩ :: rest)) rfl ?_
    (.cons rfl ?_ (.nil _) id) id
  · simp [exec, execWaitErase, State.stmt, State.goto, State.reading, hj, hlt]
  · simp [exec, execWaitErase, State.stmt, State.goto, State.call, State.reading, hT]

/-- A poll that did not match: WAIT_ERASE counts the unit (R165). -/
theorem waitErase_count (h : Seen s l g (⟨.waitErase p, 3⟩ :: rest) u) (hj : g.j = some j)
    (hPR : g.PR = some false) :
    OwnLeads (.waitErase p) u (Seen s l { g with j := some (j + 1) } (⟨.waitErase p, 1⟩ :: rest)) := by
  refine h.own fun m draws => .cons (t := s.reading m draws l g (⟨.waitErase p, 6⟩ :: rest)) rfl ?_
    (.cons rfl ?_ (.nil _) id) id
  · simp [exec, execWaitErase, State.stmt, State.goto, State.reading, hPR]
  · simp [exec, execWaitErase, State.stmt, State.goto, State.setRegs, State.reading, hj]

/-- After its last unit WAIT_ERASE returns FALSE (R165). -/
theorem waitErase_expire (h : Seen s l g (⟨.waitErase p, 1⟩ :: rest) u) (hj : g.j = some ERASE_UNITS) :
    OwnLeads (.waitErase p) u (Seen s l { g with PR := some false } rest) := by
  refine h.own fun m draws => .cons (t := s.reading m draws l g (⟨.waitErase p, 7⟩ :: rest)) rfl ?_
    (.cons rfl rfl (.cons rfl rfl (.nil _) id) id) id
  simp [exec, execWaitErase, State.stmt, State.goto, State.reading, hj]

/-- WAIT_ERASE has returned to `rest` after its reads. -/
def WaitEraseEnds (s : State) (p : Nat) (T : Count) (rest : List Frame) (t : State) : Prop :=
  ∃ ok l g, Polled p 0xFF (ERASE_UNITS * pollBound s.cfg T) ok l ∧ g.PR = some ok ∧ g.T = some T ∧ Seen s l g rest t

/-- WAIT_ERASE after `j` units without a match, by induction on the number of units left (R165). -/
theorem waitErase_loop {left : Nat} (hlive : s.live) (hp : s.readable p)
    (h : Seen s l g (⟨.waitErase p, 1⟩ :: rest) u) (hleft : j + left = ERASE_UNITS) (hj : g.j = some j)
    (hT : g.T = some T) (hl : Polled p 0xFF (j * pollBound s.cfg T) false l) :
    EngLeads u (WaitEraseEnds s p T rest) := by
  induction left generalizing j l g u with
  | zero =>
    obtain rfl : j = ERASE_UNITS := hleft
    exact ((waitErase_expire h hj).engLeads (h.live hlive)).bind fun t ht =>
      .here ⟨false, l, { g with PR := some false }, hl, rfl, hT, ht⟩
  | succ left ih =>
    refine ((waitErase_unit h hj (by omega) hT).engLeads (h.live hlive)).bind fun v hv => ?_
    refine ((poll_ends hp hv).engLeads (hv.live hlive)).bind fun t ⟨ok, lp, n, r, hlp, ht⟩ => ?_
    have hreads := hl.append hlp
    rw [← Nat.succ_mul] at hreads
    cases ok with
    | true =>
      have hle := Nat.mul_le_mul_right (pollBound s.cfg T) (show j + 1 ≤ ERASE_UNITS by omega)
      refine .after (waitErase_return (ht.live hlive) ht.epc (congrArg Regs.PR ht.regs)) (.here ?_)
      exact ⟨true, _, { t.regs with PR := some true }, hreads.mono hle, rfl, (congrArg Regs.T ht.regs).trans hT, ht.set⟩
    | false =>
      refine ((waitErase_count ht hj rfl).engLeads (ht.live hlive)).bind fun t' ht' => ?_
      exact ih ht' (by omega) rfl hT hreads

end WaitErase

theorem exec_waitErase_start (he : s.epc = ⟨.waitErase p, 0⟩ :: rest) : exec (.waitErase p) s =
    .next { s with regs := { s.regs with j := some 0 }, epc := ⟨.waitErase p, 1⟩ :: rest } := by
  simp [exec, execWaitErase, State.stmt, State.goto, State.setRegs, he]

/-- Settles O38: the units, by induction on the number left, each of them one poll. -/
theorem waitEraseIsBounded : Obligations.WaitEraseIsBounded := by
  intro s p T rest he hlive hT hp
  refine ⟨exec_waitErase_start he, ?_⟩
  have hstart := (Seen.refl s).set (g' := { s.regs with j := some 0 }) (e' := ⟨.waitErase p, 1⟩ :: rest)
  obtain ⟨m, t, hrun, ok, l, g, hl, hPR, hgT, ht⟩ :=
    EngLeads.after (engRun_succ hlive he (exec_waitErase_start he) 0) <|
      waitErase_loop hlive hp hstart (Nat.zero_add _) rfl hT (by rw [Nat.zero_mul]; exact .nil p 0xFF)
  exact ⟨m, t, l, hrun, ht.epc, ht.hist, hl.reads, hl.length_le, hl.result (by rw [ht.regs, hPR]),
    ht.faults.trans hlive.1, ht.IF, by rw [ht.regs, hgT, hT], ht.array⟩

/-! ## CAL (R162, R167) -/

section Cal

variable {D : Operand Seg} {t0 t1 probe : Byte}

/-- The engine's read of the tick byte (M3 of R63). -/
theorem engRead_tick (htick : s.cfg.devAddr? s.cfg.tickAddr = none) (f : Byte → State → State) :
    engRead s.cfg.tickAddr.toNat s f = .next (f s.tick (s.log ⟨.eng, .R, s.cfg.tickAddr, s.tick⟩)) := by
  rw [engRead, State.busRead_other (toPhys?_toNat _) htick, State.otherByte_tickAddr]

/-- CAL under MEMCFG = TEST (R162, R167). -/
theorem cal_test (he : s.epc = ⟨.cal D, 0⟩ :: rest) (hc : s.cfg.memcfg = .test) : execN (.cal D) 2 s =
    .next { s with regs := { s.regs with T := some s.cfg.calSentinel }, epc := rest } := by
  simp [execN, exec, execCal, State.stmt, State.goto, State.setRegs, State.ret, he, hc]

/-- CAL under REAL takes its address (R162). -/
theorem cal_address {d : Seg} (hlive : s.live) (he : s.epc = ⟨.cal D, 0⟩ :: rest) (hc : s.cfg.memcfg = .real)
    (hd : operand? D (some s.D) = some d) : engRun 2 s =
      .next { s with regs := { s.regs with calP := some (d.toNat * 16) }, epc := ⟨.cal D, 2⟩ :: rest } := by
  obtain ⟨hfaults, hexit, hhalted⟩ := hlive
  simp [engRun, engStep, State.ended, exec, execCal, State.stmt, State.goto, State.setRegs, physical, *]

/-- CAL's sample of the tick (R162). -/
theorem exec_cal_sample (htick : s.cfg.devAddr? s.cfg.tickAddr = none) (he : s.epc = ⟨.cal D, 3⟩ :: rest) :
    exec (.cal D) s = .next { s with
      hist := s.hist ++ [⟨.eng, .R, s.cfg.tickAddr, s.tick⟩], regs := { s.regs with t0 := some s.tick },
      epc := ⟨.cal D, 4⟩ :: rest } := by
  simp [exec, execCal, State.stmt, engRead_tick htick, State.goto, State.setRegs, State.log, he]

/-- CAL's beginning under REAL: its address, its probe, and its sample of the tick (R162). -/
theorem cal_begin {d : Seg} (hlive : s.live) (htick : s.cfg.devAddr? s.cfg.tickAddr = none)
    (he : s.epc = ⟨.cal D, 0⟩ :: rest) (hc : s.cfg.memcfg = .real) (hd : operand? D (some s.D) = some d)
    (hp : s.readable (d.toNat * 16)) : ∃ t x, engRun 4 s = .next t ∧ (∀ y, s.shows (d.toNat * 16) y → x = y) ∧
      Seen s [⟨.eng, .R, BitVec.ofNat 20 (d.toNat * 16), x⟩, ⟨.eng, .R, s.cfg.tickAddr, s.tick⟩]
        { s.regs with calP := some (d.toNat * 16), probe := some (x ^^^ 0xFF), t0 := some s.tick }
        (⟨.cal D, 4⟩ :: rest) t := by
  have hu := (Seen.refl s).set (g' := { s.regs with calP := some (d.toNat * 16) }) (e' := ⟨.cal D, 2⟩ :: rest)
  obtain ⟨x, v, hrun, hx, m, draws, hm, rfl⟩ := hu.ownRead hp (k' := 3)
    (f := fun x g => { g with probe := some (x ^^^ 0xFF) }) (by simp [exec, execCal, hu.stmt])
  refine ⟨_, x, ?_, hx, m, draws, hm, rfl⟩
  refine (engRun_add (k := 2) (cal_address hlive he hc hd)).trans <|
    (engRun_add (k := 1) (hrun.engRun (by exact hlive))).trans <|
    (engRun_succ (by exact hlive) rfl (exec_cal_sample (by exact htick) rfl) 0).trans ?_
  simp [engRun, State.reading]

/-- A turn of CAL's wait for the tick, while the tick stands (R162). -/
theorem cal_waits (hlive : s.live) (htick : s.cfg.devAddr? s.cfg.tickAddr = none)
    (he : s.epc = ⟨.cal D, 4⟩ :: rest) (h0 : s.regs.t0 = some t0) (heq : s.tick = t0) : engRun 2 s = .next { s with
      hist := s.hist ++ [⟨.eng, .R, s.cfg.tickAddr, s.tick⟩], regs := { s.regs with t1 := some s.tick },
      epc := ⟨.cal D, 4⟩ :: rest } := by
  obtain ⟨hfaults, hexit, hhalted⟩ := hlive
  simp [engRun, engStep, State.ended, exec, execCal, State.stmt, engRead_tick, State.goto, State.setRegs, State.log, *]

/-- CAL's wait ends where the tick has advanced, and the count begins at 0 (R162). -/
theorem cal_waited (hlive : s.live) (htick : s.cfg.devAddr? s.cfg.tickAddr = none)
    (he : s.epc = ⟨.cal D, 4⟩ :: rest) (h0 : s.regs.t0 = some t0) (hne : s.tick ≠ t0) : engRun 3 s = .next { s with
      hist := s.hist ++ [⟨.eng, .R, s.cfg.tickAddr, s.tick⟩],
      regs := { s.regs with t1 := some s.tick, N := some 0 }, epc := ⟨.cal D, 7⟩ :: rest } := by
  obtain ⟨hfaults, hexit, hhalted⟩ := hlive
  simp [engRun, engStep, State.ended, exec, execCal, State.stmt, engRead_tick, State.goto, State.setRegs, State.log, *]

/-- CAL's loop test (R162). -/
theorem exec_cal_test (htick : s.cfg.devAddr? s.cfg.tickAddr = none) (he : s.epc = ⟨.cal D, 7⟩ :: rest)
    (h1 : s.regs.t1 = some t1) : exec (.cal D) s = .next { s with
      hist := s.hist ++ [⟨.eng, .R, s.cfg.tickAddr, s.tick⟩],
      epc := ⟨.cal D, if s.tick = t1 then 8 else 10⟩ :: rest } := by
  simp [exec, execCal, State.stmt, engRead_tick htick, State.goto, State.log, he, h1]

/-- The round after the tick has advanced sets T and returns (R162). -/
theorem cal_ends (hlive : s.live) (htick : s.cfg.devAddr? s.cfg.tickAddr = none) (he : s.epc = ⟨.cal D, 7⟩ :: rest)
    (h1 : s.regs.t1 = some t1) (hN : s.regs.N = some N) (hne : s.tick ≠ t1) : engRun 2 s = .next { s with
      hist := s.hist ++ [⟨.eng, .R, s.cfg.tickAddr, s.tick⟩],
      regs := { s.regs with T := some (BitVec.ofNat 16 N) }, epc := rest } := by
  rw [engRun_succ hlive he (exec_cal_test htick he h1), if_neg hne]
  exact engRun_succ (by exact hlive) rfl (by simp [exec, execCal, State.stmt, State.setRegs, State.ret, hN]) 0

/-- A round of CAL's loop calls its poll (R162). -/
theorem cal_call (h : Seen s l g (⟨.cal D, 8⟩ :: rest) u) (hp : g.calP = some p) (hprobe : g.probe = some probe) :
    OwnLeads (.cal D) u (Seen s l g (⟨.poll p probe CAL_TRIES, 0⟩ :: ⟨.cal D, 9⟩ :: rest)) :=
  h.own fun _ _ => .cons rfl
    (by simp [exec, execCal, State.stmt, State.reading, State.call, State.goto, hp, hprobe]) (.nil _) id

/-- A round of CAL's loop counts, saturating (R162). -/
theorem cal_count (h : Seen s l g (⟨.cal D, 9⟩ :: rest) u) (hN : g.N = some N) :
    OwnLeads (.cal D) u (Seen s l { g with N := some (sat16 (N + 1)) } (⟨.cal D, 7⟩ :: rest)) :=
  h.own fun _ _ => .cons rfl
    (by simp [exec, execCal, State.stmt, State.reading, State.setRegs, State.goto, hN]) (.nil _) id

/-- A round of CAL's loop while the tick stands: the tick's read, one poll, and one more of N (R162). -/
theorem cal_round (hlive : s.live) (htick : s.cfg.devAddr? s.cfg.tickAddr = none) (he : s.epc = ⟨.cal D, 7⟩ :: rest)
    (hcalP : s.regs.calP = some p) (hp : s.readable p) (hprobe : s.regs.probe = some probe)
    (h1 : s.regs.t1 = some t1) (hN : s.regs.N = some N) (heq : s.tick = t1) :
    EngLeads s fun t => ∃ ok l n r, Polled p probe 256 ok l ∧
      Seen s (⟨.eng, .R, s.cfg.tickAddr, s.tick⟩ :: l)
        { s.regs.polled (some ok) n (some 256) r with N := some (sat16 (N + 1)) } (⟨.cal D, 7⟩ :: rest) t := by
  have htest := engRun_succ hlive he (exec_cal_test htick he h1) 0
  rw [if_pos heq] at htest
  have hstart : Seen s [⟨.eng, .R, s.cfg.tickAddr, s.tick⟩] s.regs (⟨.cal D, 8⟩ :: rest) _ :=
    ⟨s.dev.mode, s.draws, .inl rfl, rfl⟩
  refine .after htest <| ((cal_call hstart hcalP hprobe).engLeads (by exact hlive)).bind fun u hu => ?_
  refine ((poll_ends hp hu).engLeads (hu.live hlive)).bind fun v ⟨ok, l, n, r, hl, hv⟩ => ?_
  exact ((cal_count hv hN).engLeads (hv.live hlive)).bind fun t ht => .here ⟨ok, l, n, r, hl, ht⟩

theorem movesRun_tick {ms : List Move} (h : s.faults = []) : movesRun (.tick :: ms) s = movesRun ms s.tickStep := by
  simp [movesRun, agentStep, h]

theorem byte_add_one_ne (b : Byte) : b + 1 ≠ b := by bv_omega

/-- The tick advances before a loop test, which then ends CAL (R162). -/
theorem cal_tickEnds (hlive : s.live) (htick : s.cfg.devAddr? s.cfg.tickAddr = none)
    (he : s.epc = ⟨.cal D, 7⟩ :: rest) (h1 : s.regs.t1 = some s.tick) (hN : s.regs.N = some N) :
    movesRun [.tick, .eng, .eng] s = .next { s with
      tick := s.tick + 1, hist := s.hist ++ [⟨.eng, .R, s.cfg.tickAddr, s.tick + 1⟩],
      regs := { s.regs with T := some (BitVec.ofNat 16 N) }, epc := rest } := by
  rw [movesRun_tick hlive.1]
  exact movesRun_eng (ms := []) (cal_ends (s := s.tickStep) hlive htick he h1 hN (byte_add_one_ne s.tick))

/-- The tick advances before CAL's second sample and before its first loop test: T is 0 (R162, R167). -/
theorem cal_zero (hlive : s.live) (htick : s.cfg.devAddr? s.cfg.tickAddr = none) (he : s.epc = ⟨.cal D, 4⟩ :: rest)
    (h0 : s.regs.t0 = some s.tick) : ∃ t, movesRun [.tick, .eng, .eng, .eng, .tick, .eng, .eng] s = .next t ∧
      t.regs.T = some 0 ∧ t.epc = rest ∧ t.faults = [] ∧ t.dev.array = s.dev.array ∧
      t.hist.length = s.hist.length + 2 := by
  have hwaited := movesRun_eng (ms := [.tick, .eng, .eng]) <|
    cal_waited (s := s.tickStep) hlive htick he h0 (byte_add_one_ne s.tick)
  have hends := hwaited.trans (cal_tickEnds (by exact hlive) (by exact htick) rfl rfl rfl)
  exact ⟨_, (movesRun_tick hlive.1).trans hends, rfl, rfl, hlive.1, rfl, by simp⟩

end Cal

/-- Settles O36: the round's poll has 256 tries, and `sat16` is the minimum. -/
theorem calCountsRounds : Obligations.CalCountsRounds := by
  intro s D rest p N t1 probe he hlive htick hcalP hp hprobe h1 hN
  refine ⟨fun heq => ?_, cal_ends hlive htick he h1 hN⟩
  obtain ⟨m, t, hrun, ok, l, n, r, hl, ht⟩ := cal_round hlive htick he hcalP hp hprobe h1 hN heq
  exact ⟨m, t, l, hrun, ht.epc, by rw [ht.regs]; rfl, ht.hist, hl.reads, hl.length_le,
    hl.result (congrArg Regs.PR ht.regs), ht.faults.trans hlive.1, ht.IF, ht.array⟩

/-- Settles O35: the sentinel of TEST, and the samples, the wait and the empty count of REAL. -/
theorem calSetsT : Obligations.CalSetsT := by
  intro s D rest
  refine ⟨cal_test, fun d he hc hlive hwf hd hp => ?_, fun t0 he _ hlive hwf h0 => ?_⟩
  · have htick := Config.devAddr?_tickAddr hwf
    obtain ⟨t, x, hrun, hx, ht⟩ := cal_begin hlive htick he hc hd hp
    refine ⟨⟨t, x, hrun, ht.afterReads, hx⟩, ?_⟩
    have h0 : t.regs.t0 = some t.tick := by rw [ht.regs, ht.tick]
    obtain ⟨u, hu, hT, hepc, hfaults, harray, hhist⟩ := cal_zero (ht.live hlive) (by rw [ht.cfg]; exact htick) ht.epc h0
    refine ⟨u, (movesRun_eng hrun).trans hu, hT, hepc, hfaults, harray.trans ht.array, ?_⟩
    rw [hhist, ht.hist, List.length_append]
    rfl
  · have htick := Config.devAddr?_tickAddr hwf
    exact ⟨cal_waits hlive htick he h0, cal_waited hlive htick he h0⟩

end Machine

end Sys2Proof
end

section
/-! PROOFS. The critical section (R180, R181, R186, R188, R280): what its operations do, and that every step of a run
from RUN keeps the tie of EPC, IF and the device's mode. A statement is looked at from where EPC stands (`Stands`); a
procedure that writes neither the bus nor IF is treated once for all (`Instr.quiet`). -/

namespace Sys2Proof

/-- The procedures that write neither to the bus nor IF, and call at most POLL. -/
def Instr.quiet : Instr → Bool
  | .poll _ _ _ | .cal _ | .waitProgram _ _ | .waitErase _ | .idDecode _ _ | .plan _ _ | .overlap _ _ _
  | .compareBlock _ | .verify | .halt => true
  | _ => false

namespace Machine

variable {s t u : State} {i j : Instr} {e rest : List Frame} {b : Bool} {m m' : DevMode} {k n p : Nat} {v : Byte}
  {a : DevAddr} {c : Config} {x : Base} {α : Type}

/-! ## CS_ENTER and CS_EXIT (R180, R181) -/

theorem exec_csEnter (he : s.epc = ⟨.csEnter, 0⟩ :: rest) :
    exec .csEnter s = .next { s with IF := false, epc := rest } := by
  simp only [exec, execCsEnter, State.stmt_of_epc he, State.setIF, State.ret, he, List.tail_cons]

theorem exec_csExit (he : s.epc = ⟨.csExit, 0⟩ :: rest) :
    exec .csExit s = .next { s with IF := true, epc := rest } := by
  simp only [exec, execCsExit, State.stmt_of_epc he, State.setIF, State.ret, he, List.tail_cons]

theorem isrStep_of_masked (h : s.IF = false) (q : PhysAddr) : isrStep q s = .next s := by
  simp [isrStep, h]

/-- A read at a physical address is one entry of HIST, accepted or not (R66, R139). -/
theorem State.busRead_hist (s : State) (ag : Agent) (q : PhysAddr) :
    ∃ t v, ((∃ x, s.busRead ag q.toNat = .ok x t) ∨ s.busRead ag q.toNat = .stop t) ∧
      t.hist = s.hist ++ [⟨ag, .R, q, v⟩] := by
  cases h : s.busRead ag q.toNat with
  | ok x t =>
    obtain ⟨-, -, -, -, q', hq, hhist, -⟩ := State.busRead_ok h
    rw [toPhys?_toNat] at hq
    cases hq
    exact ⟨t, x, .inl ⟨x, rfl⟩, hhist⟩
  | stop t =>
    obtain ⟨hq, -⟩ | ⟨q', a, hq, -, -, rfl⟩ := State.busRead_stop h
    · simp at hq
    · rw [toPhys?_toNat] at hq
      cases hq
      exact ⟨_, s.fresh, .inr rfl, rfl⟩

/-- With IF = 1 the ISR may read any address (R265). -/
theorem isrStep_of_enabled (h : s.IF = true) (q : PhysAddr) :
    ∃ t v, isrStep q s = .next t ∧ t.hist = s.hist ++ [⟨.isr, .R, q, v⟩] := by
  obtain ⟨t, v, ⟨x, hb⟩ | hb, hhist⟩ := s.busRead_hist .isr q <;>
    exact ⟨t, v, by simp only [isrStep, h, if_true, hb], hhist⟩

/-- Settles O40: each is one statement, and the ISR's step goes by the IF it leaves. -/
theorem criticalSectionOpsWriteIF : Obligations.CriticalSectionOpsWriteIF := by
  intro s rest
  exact ⟨fun he => ⟨exec_csEnter he, isrStep_of_masked rfl⟩, fun he => ⟨exec_csExit he, isrStep_of_enabled rfl⟩⟩

/-! ## The check at the first write (R186, R264) -/

theorem engFirstWrite_of_enabled (hIF : s.IF = true) (hf : s.faults = []) (p : Nat) (v : Byte) (f : State → State) :
    engFirstWrite p v s f = .next { s with faults := [.criticalSectionViolation] } := by
  rw [engFirstWrite, if_pos hIF, State.raise_of_nil hf]

/-- Settles O58: the operand is looked at first, then IF. -/
theorem criticalSectionIsChecked : Obligations.CriticalSectionIsChecked := by
  intro s S p v hk hIF hf
  simp only [exec, execEraseSector, execProgramByte, hk]
  refine ⟨fun hS => ?_, fun hS => ?_⟩
  · obtain ⟨S', hS'⟩ := Option.ne_none_iff_exists'.mp hS
    simp only [hS', need_some, engFirstWrite_of_enabled hIF hf, and_self]
  · simp only [hS, need_none, State.raise_of_nil hf, and_self]

/-! ## What the phases say (R186, R188, R280) -/

/-- With IF = 1 the device is in no sequence and not in ID. -/
theorem Phase.calm_of_enabled (h : Phase e true m) : m.calm := by
  unfold Phase at h
  split at h
  case h_9 => unfold detectPhase at h; split at h <;> simp_all
  all_goals simp_all

theorem detectPhase_completed (h : detectPhase k b m) (hm : m.calm) : detectPhase k b .read := by
  unfold detectPhase at h ⊢
  split at h
  case h_3 | h_4 | h_5 | h_6 | h_7 | h_8 | h_9 | h_10 => obtain ⟨-, x, rfl⟩ := h; cases hm
  all_goals simp_all [DevMode.calm]

theorem erasePhase_completed (h : erasePhase k m) (hm : m.calm) : erasePhase k .read := by
  unfold erasePhase at h ⊢
  split at h
  case h_1 | h_7 | h_8 => rfl
  case h_2 | h_3 => obtain ⟨x, rfl⟩ := h; cases hm
  case h_4 | h_5 | h_6 => cases h; cases hm
  case h_9 => exact h

theorem programPhase_completed (h : programPhase k m) (hm : m.calm) : programPhase k .read := by
  unfold programPhase at h ⊢
  split at h
  case h_1 | h_5 | h_6 => rfl
  case h_2 | h_3 => obtain ⟨x, rfl⟩ := h; cases hm
  case h_4 => cases h; cases hm
  case h_7 => exact h

/-- What holds while the device is calm holds when its operation has completed. -/
theorem Phase.completed (h : Phase e b m) (hm : m.calm) : Phase e b .read := by
  unfold Phase at h
  split at h
  case h_9 => exact detectPhase_completed h hm
  case h_16 => exact ⟨h.1, h.2.1, erasePhase_completed h.2.2 hm⟩
  case h_19 => exact ⟨h.1, h.2.1, programPhase_completed h.2.2 hm⟩
  all_goals simp_all [Phase, DevMode.calm]

/-- A quiet procedure keeps its place in the run whatever statement it is at, and so do its caller when it returns and
the POLL that it calls. -/
structure QuietPlace (i : Instr) (rest : List Frame) (b : Bool) (m : DevMode) : Prop where
  calm : m.calm
  goto : ∀ n, Phase (⟨i, n⟩ :: rest) b m
  ret : Phase rest b m
  poll : i.rank = 2 → ∀ p v T n, Phase (⟨.poll p v T, 0⟩ :: ⟨i, n⟩ :: rest) b m

/-- The positions of a run from RUN, by the frame on top. -/
inductive PhaseCase (e : List Frame) (b : Bool) (m : DevMode) : Prop where
  | quiet (i : Instr) (k : Nat) (rest : List Frame) (hi : i.quiet = true) (he : e = ⟨i, k⟩ :: rest)
      (h : QuietPlace i rest b m)
  | csEnter (k : Nat) (rest : List Frame) (he : e = ⟨.csEnter, k⟩ :: rest) (h : Phase rest false m)
  | csExit (k : Nat) (rest : List Frame) (he : e = ⟨.csExit, k⟩ :: rest) (h : Phase rest true m)
  | detect (S D : Operand Seg) (k r : Nat) (he : e = [⟨.detect S D, k⟩, ⟨.run, r⟩]) (h : detectPhase k b m)
  | eraseSector (S : Operand Seg) (p k r : Nat) (he : e = [⟨.eraseSector S p, k⟩, ⟨.flash, 7⟩, ⟨.run, r⟩])
      (hb : b = false) (h : erasePhase k m)
  | programByte (S : Operand Seg) (p : Nat) (v : Byte) (k r : Nat)
      (he : e = [⟨.programByte S p v, k⟩, ⟨.flash, 15⟩, ⟨.run, r⟩]) (hb : b = false) (h : programPhase k m)
  | flash (k r : Nat) (he : e = [⟨.flash, k⟩, ⟨.run, r⟩]) (hb : b = !flashMasked k) (hm : m.calm)
  | run (k : Nat) (he : e = [⟨.run, k⟩]) (hb : b = true) (hm : m.calm)

theorem phase_cases (h : Phase e b m) : PhaseCase e b m := by
  unfold Phase at h
  split at h
  case h_1 => exact .run _ rfl h.1 h.2
  case h_9 => exact .detect _ _ _ _ rfl h
  case h_10 => exact .csEnter _ _ rfl (by obtain ⟨rfl, hm⟩ := h; exact ⟨rfl, hm⟩)
  case h_11 => exact .csExit _ _ rfl (by obtain ⟨rfl, hm⟩ := h; exact ⟨rfl, hm⟩)
  case h_12 => exact .flash _ _ rfl h.1 h.2
  case h_13 => exact .csEnter _ _ rfl ⟨by rw [h.1]; rfl, h.2⟩
  case h_14 => exact .csExit _ _ rfl ⟨by rw [h.1]; rfl, h.2⟩
  case h_16 => obtain ⟨rfl, hb, hm⟩ := h; exact .eraseSector _ _ _ _ rfl hb hm
  case h_19 => obtain ⟨rfl, hb, hm⟩ := h; exact .programByte _ _ _ _ _ rfl hb hm
  case h_15 => obtain ⟨rfl, rfl, hm⟩ := h; exact .quiet _ _ _ rfl rfl ⟨hm, fun _ => ⟨rfl, rfl, hm⟩, ⟨rfl, hm⟩, nofun⟩
  case h_17 | h_20 =>
    obtain ⟨rfl, rfl, rfl, hm⟩ := h
    exact .quiet _ _ _ rfl rfl ⟨hm, fun _ => ⟨rfl, rfl, rfl, hm⟩, ⟨rfl, rfl, hm⟩, fun _ _ _ _ _ => ⟨rfl, rfl, rfl, hm⟩⟩
  case h_18 | h_21 =>
    obtain ⟨rfl, rfl, rfl, hm⟩ := h
    exact .quiet _ _ _ rfl rfl ⟨hm, fun _ => ⟨rfl, rfl, rfl, hm⟩, ⟨rfl, rfl, rfl, hm⟩, nofun⟩
  case h_22 => cases h
  case h_2 => exact .quiet _ _ _ rfl rfl ⟨h.2, fun _ => h, h, fun _ _ _ _ _ => h⟩
  all_goals exact .quiet _ _ _ rfl rfl ⟨h.2, fun _ => h, h, nofun⟩

/-! ## One statement, from where EPC stands -/

/-- EPC, IF and the device's mode. -/
def Stands (e : List Frame) (b : Bool) (m : DevMode) (s : State) : Prop := s.epc = e ∧ s.IF = b ∧ s.dev.mode = m

theorem Stands.stay (h : Stands e b m s) (hp : Phase e b m) : CriticalInv s := by
  obtain ⟨rfl, rfl, rfl⟩ := h
  exact fun _ => hp

theorem Stands.goto (h : Stands (⟨i, k⟩ :: rest) b m s) (hp : Phase (⟨i, n⟩ :: rest) b m) : CriticalInv (s.goto n) :=
  Stands.stay ⟨State.goto_epc_of h.1 n, h.2⟩ hp

theorem Stands.gotoIf {y z : Nat} {cond : Prop} [Decidable cond] (h : Stands (⟨i, k⟩ :: rest) b m s)
    (hy : Phase (⟨i, y⟩ :: rest) b m) (hz : Phase (⟨i, z⟩ :: rest) b m) :
    CriticalInv (s.goto (if cond then y else z)) := by
  split
  · exact h.goto hy
  · exact h.goto hz

theorem Stands.ret (h : Stands (⟨i, k⟩ :: rest) b m s) (hp : Phase rest b m) : CriticalInv s.ret :=
  Stands.stay ⟨congrArg List.tail h.1, h.2⟩ hp

theorem Stands.call (h : Stands (⟨i, k⟩ :: rest) b m s) (hp : Phase (⟨j, 0⟩ :: ⟨i, n⟩ :: rest) b m) :
    CriticalInv (s.call j n) :=
  Stands.stay ⟨by rw [State.call_epc, State.goto_epc_of h.1], h.2⟩ hp

/-- A recorded fault suspends the tie. -/
theorem CriticalInv.of_faults (h : t.faults ≠ []) : CriticalInv t := fun hnil => absurd hnil h

theorem State.busRead_stop_faults {ag : Agent} (h : s.busRead ag p = .stop t) : t.faults ≠ [] := by
  obtain ⟨-, rfl⟩ | ⟨q, a, -, -, -, rfl⟩ := State.busRead_stop h <;> exact State.raise_faults_ne_nil _ _

theorem State.busWrite_stop_faults {ag : Agent} (h : s.busWrite ag p v = .stop t) : t.faults ≠ [] := by
  obtain ⟨-, rfl⟩ | ⟨q, a, -, -, -, rfl⟩ | ⟨q, -, -, -, rfl⟩ := State.busWrite_stop h <;>
    exact State.raise_faults_ne_nil _ _

theorem nextAll_need_critical {value : Option α} {name : RegName} {f : α → Out}
    (h : ∀ x, NextAll CriticalInv (f x)) : NextAll CriticalInv (need value name s f) :=
  nextAll_need (.of_faults (s.raise_faults_ne_nil _)) fun x _ => h x

/-- An accepted read leaves the mode, but for the stale count of ID. -/
theorem State.busRead_ok_stands {ag : Agent} (h : Stands e b m s) (hb : s.busRead ag p = .ok v t) :
    ∃ m', KeepsMode m m' ∧ Stands e b m' t := by
  obtain ⟨he, hIF, rfl⟩ := h
  obtain ⟨hframe, -, -, -, q, -, -, ⟨hdev, -⟩ | ⟨a, m', -, ha, -, hm, -⟩⟩ := State.busRead_ok hb
  · exact ⟨_, .inl rfl, hframe.epc.trans he, hframe.IF.trans hIF, by rw [hdev]⟩
  · exact ⟨m', State.mode_of_readAnswer_draw ha, hframe.epc.trans he, hframe.IF.trans hIF, hm⟩

theorem KeepsMode.eq_of_calm (h : KeepsMode m m') (hm : m.calm) : m' = m := by
  obtain rfl | ⟨n, k, rfl, -⟩ := h
  · rfl
  · cases hm

theorem KeepsMode.of_id {x : Nat} (h : KeepsMode (.id x) m') : ∃ n, m' = .id n := by
  obtain rfl | ⟨-, n, -, rfl⟩ := h
  exacts [⟨x, rfl⟩, ⟨n, rfl⟩]

theorem nextAll_engRead_critical {f : Byte → State → State} (h : Stands e b m s)
    (hf : ∀ v m' u, KeepsMode m m' → Stands e b m' u → CriticalInv (f v u)) :
    NextAll CriticalInv (engRead p s f) :=
  nextAll_engRead (fun v u hb => let ⟨m', hm', hu⟩ := State.busRead_ok_stands h hb; hf v m' u hm' hu)
    fun _ hb => .of_faults (State.busRead_stop_faults hb)

theorem nextAll_engRead_calm {f : Byte → State → State} (h : Stands e b m s) (hm : m.calm)
    (hf : ∀ v u, Stands e b m u → CriticalInv (f v u)) : NextAll CriticalInv (engRead p s f) :=
  nextAll_engRead_critical h fun v _ u hm' hu => hf v u (hm'.eq_of_calm hm ▸ hu)

/-- Every statement of a quiet procedure keeps the tie. -/
theorem exec_quiet_critical (hi : i.quiet = true) (h : Stands (⟨i, k⟩ :: rest) b m s) (hp : QuietPlace i rest b m) :
    NextAll CriticalInv (exec i s) := by
  obtain ⟨hm, hgoto, hret, hpoll⟩ := hp
  cases i with
  | readArray | swidEntry | swidRead | swidExit | sectorErase | byteProgram | statusRead | csEnter | csExit | detect
  | eraseSector | programByte | flash | run => cases hi
  | poll | cal | waitProgram | waitErase | idDecode | plan | overlap | compareBlock | verify | halt =>
    dsimp only [exec]
    first
      | unfold execPoll | unfold execCal | unfold execWaitProgram | unfold execWaitErase
      | unfold execIdDecode idTest idSet | unfold execPlan | unfold execOverlap | unfold execCompareBlock
      | unfold execVerify | unfold execHalt
    split <;>
      repeat' first
        | with_reducible exact (nextAll_fault _).2 trivial
        | with_reducible refine nextAll_need_critical fun _ => ?_
        | with_reducible refine nextAll_needImage fun _ _ => ?_
        | with_reducible refine nextAll_engRead_calm h hm fun _ _ hu => ?_
        | with_reducible refine (nextAll_next _).2 ?_
        | exact Stands.goto (by assumption) (hgoto _)
        | exact Stands.ret h hret
        | exact Stands.call h (hpoll rfl _ _ _ _)
        | exact Stands.stay h (hgoto _)

/-! ## The writes of the sequences (R122) -/

theorem Dev.writeMode_unlock_of_calm (hm : m.calm) (h : Dev.writeMode c m a 0xAA = some m') : m' = .u1 .read := by
  cases m <;> simp_all [DevMode.calm, Dev.writeMode]

theorem Dev.mode_of_u1 (h : Dev.writeMode c (.u1 x) a v = some m') : m' = .u2 x := by
  simp only [Dev.writeMode] at h; grind

theorem Dev.mode_of_u2_swid (h : Dev.writeMode c (.u2 x) a 0x90 = some m') : m' = .id c.idStale := by
  simp_all [Dev.writeMode]

theorem Dev.mode_of_u2_erase (h : Dev.writeMode c (.u2 x) a 0x80 = some m') : m' = .e1 := by
  simp_all [Dev.writeMode]

theorem Dev.mode_of_u2_program (h : Dev.writeMode c (.u2 x) a 0xA0 = some m') : m' = .p1 := by
  simp_all [Dev.writeMode]

theorem Dev.mode_of_id_exit {x : Nat} (h : Dev.writeMode c (.id x) a 0xF0 = some m') : m' = .read := by
  simp_all [Dev.writeMode]

theorem Dev.mode_of_e1 (h : Dev.writeMode c .e1 a v = some m') : m' = .e2 := by
  simp only [Dev.writeMode] at h; grind

theorem Dev.mode_of_e2 (h : Dev.writeMode c .e2 a v = some m') : m' = .e3 := by
  simp only [Dev.writeMode] at h; grind

theorem Dev.calm_of_e3 (h : Dev.writeMode c .e3 a v = some m') : m'.calm := by
  simp only [Dev.writeMode] at h; grind [DevMode.calm]

theorem Dev.calm_of_p1 (h : Dev.writeMode c .p1 a v = some m') : m'.calm := by
  cases h; rfl

/-- From `s` to `t` the tie is kept, provided that a write reaches the device. -/
def Keeps (s t : State) : Prop := s.cfg.memcfg = .real ∨ WritesReachDevice s t → CriticalInv t

theorem NextAll.keeps {o : Out} (h : NextAll CriticalInv o) : NextAll (Keeps s) o := fun t ht _ => h t ht

theorem nextAll_next_keeps (h : CriticalInv t) : NextAll (Keeps s) (.next t) := (nextAll_next t).2 fun _ => h

theorem nextAll_need_keeps {value : Option α} {name : RegName} {f : α → Out}
    (h : ∀ x, NextAll (Keeps s) (f x)) : NextAll (Keeps s) (need value name s f) :=
  nextAll_need (fun _ => .of_faults (s.raise_faults_ne_nil _)) fun x _ => h x

/-- A write of a sequence that the device accepts moves the sequence on; what is not accepted is a fault. -/
theorem nextAll_engWrite_keeps (h : Stands (⟨i, k⟩ :: rest) b m s)
    (hp : ∀ {a m'}, Dev.writeMode s.cfg m a v = some m' → Phase (⟨i, n⟩ :: rest) b m') :
    NextAll (Keeps s) (engWrite p v s (·.goto n)) := by
  refine nextAll_engWrite (fun x u hb hreach => ?_) fun _ hb _ => .of_faults (State.busWrite_stop_faults hb)
  obtain ⟨he, hIF, rfl⟩ := h
  obtain ⟨hframe, -, -, -, q, -, hhist, ⟨a, m', -, hm, hm', -⟩ | ⟨ha, hc, -, -⟩⟩ := State.busWrite_ok hb
  · exact Stands.goto ⟨hframe.epc.trans he, hframe.IF.trans hIF, hm'⟩ (hp hm)
  · rcases hreach with hreal | hreach
    · rw [hreal] at hc; cases hc
    · exact absurd ha (hreach _ hhist rfl)

/-- The first write of ERASE_SECTOR or PROGRAM_BYTE, made with IF = 0. -/
theorem nextAll_engFirstWrite_keeps (h : Stands (⟨i, k⟩ :: rest) false m s)
    (hp : ∀ {a m'}, Dev.writeMode s.cfg m a v = some m' → Phase (⟨i, n⟩ :: rest) false m') :
    NextAll (Keeps s) (engFirstWrite p v s (·.goto n)) := by
  rw [engFirstWrite, h.2.1]
  exact nextAll_engWrite_keeps h hp

/-! ## The procedures that write (R182, R184, R185, R219, R226) -/

variable {S D : Operand Seg} {r : Nat}

theorem exec_csEnter_critical (h : Stands (⟨.csEnter, k⟩ :: rest) b m s) (hp : Phase rest false m) :
    NextAll CriticalInv (exec .csEnter s) := by
  dsimp only [exec, execCsEnter]
  split
  · exact (nextAll_next _).2 (Stands.ret (b := false) ⟨h.1, rfl, h.2.2⟩ hp)
  · exact (nextAll_fault _).2 trivial

theorem exec_csExit_critical (h : Stands (⟨.csExit, k⟩ :: rest) b m s) (hp : Phase rest true m) :
    NextAll CriticalInv (exec .csExit s) := by
  dsimp only [exec, execCsExit]
  split
  · exact (nextAll_next _).2 (Stands.ret (b := true) ⟨h.1, rfl, h.2.2⟩ hp)
  · exact (nextAll_fault _).2 trivial

theorem exec_detect_keeps (h : Stands [⟨.detect S D, k⟩, ⟨.run, r⟩] b m s) (hp : detectPhase k b m) :
    NextAll (Keeps s) (exec (.detect S D) s) := by
  simp only [exec, execDetect, State.stmt_of_epc h.1]
  unfold detectPhase at hp
  split at hp
  all_goals obtain ⟨rfl, hm⟩ := hp
  case h_1 => exact nextAll_next_keeps (h.call ⟨rfl, hm⟩)
  case h_2 =>
    exact nextAll_need_keeps fun _ => nextAll_engWrite_keeps h fun hw =>
      ⟨rfl, _, Dev.writeMode_unlock_of_calm hm hw⟩
  case h_3 =>
    obtain ⟨x, rfl⟩ := hm
    exact nextAll_need_keeps fun _ => nextAll_engWrite_keeps h fun hw => ⟨rfl, x, Dev.mode_of_u1 hw⟩
  case h_4 =>
    obtain ⟨x, rfl⟩ := hm
    exact nextAll_need_keeps fun _ => nextAll_engWrite_keeps h fun hw => ⟨rfl, _, Dev.mode_of_u2_swid hw⟩
  case h_5 => exact nextAll_next_keeps (Stands.goto h ⟨rfl, hm⟩)
  case h_6 => exact nextAll_need_keeps fun _ => nextAll_next_keeps (h.gotoIf ⟨rfl, hm⟩ ⟨rfl, hm⟩)
  case h_7 =>
    obtain ⟨x, rfl⟩ := hm
    exact nextAll_need_keeps fun _ => NextAll.keeps <| nextAll_engRead_critical h fun _ _ _ hm' hu =>
      Stands.goto hu ⟨rfl, hm'.of_id⟩
  case h_8 => exact nextAll_need_keeps fun _ => nextAll_next_keeps (Stands.goto h ⟨rfl, hm⟩)
  case h_9 =>
    obtain ⟨x, rfl⟩ := hm
    exact nextAll_need_keeps fun _ => NextAll.keeps <| nextAll_engRead_critical h fun _ _ _ hm' hu =>
      Stands.goto hu ⟨rfl, hm'.of_id⟩
  case h_10 =>
    obtain ⟨x, rfl⟩ := hm
    exact nextAll_need_keeps fun _ => nextAll_engWrite_keeps h fun hw => ⟨rfl, Dev.mode_of_id_exit hw⟩
  case h_11 => obtain rfl := hm; exact nextAll_next_keeps (h.call ⟨rfl, rfl⟩)
  case h_12 => exact nextAll_next_keeps (h.ret ⟨rfl, hm⟩)

theorem exec_eraseSector_keeps (h : Stands [⟨.eraseSector S p, k⟩, ⟨.flash, 7⟩, ⟨.run, r⟩] false m s)
    (hp : erasePhase k m) : NextAll (Keeps s) (exec (.eraseSector S p) s) := by
  simp only [exec, execEraseSector, State.stmt_of_epc h.1]
  unfold erasePhase at hp
  split at hp
  case h_1 =>
    exact nextAll_need_keeps fun _ => nextAll_engFirstWrite_keeps h fun hw =>
      ⟨rfl, rfl, _, Dev.writeMode_unlock_of_calm hp hw⟩
  case h_2 =>
    obtain ⟨x, rfl⟩ := hp
    exact nextAll_need_keeps fun _ => nextAll_engWrite_keeps h fun hw => ⟨rfl, rfl, x, Dev.mode_of_u1 hw⟩
  case h_3 =>
    obtain ⟨x, rfl⟩ := hp
    exact nextAll_need_keeps fun _ => nextAll_engWrite_keeps h fun hw => ⟨rfl, rfl, Dev.mode_of_u2_erase hw⟩
  case h_4 =>
    obtain rfl := hp
    exact nextAll_need_keeps fun _ => nextAll_engWrite_keeps h fun hw => ⟨rfl, rfl, Dev.mode_of_e1 hw⟩
  case h_5 =>
    obtain rfl := hp
    exact nextAll_need_keeps fun _ => nextAll_engWrite_keeps h fun hw => ⟨rfl, rfl, Dev.mode_of_e2 hw⟩
  case h_6 => obtain rfl := hp; exact nextAll_engWrite_keeps h fun hw => ⟨rfl, rfl, Dev.calm_of_e3 hw⟩
  case h_7 => exact nextAll_next_keeps (h.call ⟨rfl, rfl, rfl, hp⟩)
  case h_8 => exact nextAll_next_keeps (h.ret ⟨rfl, hp⟩)
  case h_9 => cases hp

theorem exec_programByte_keeps (h : Stands [⟨.programByte S p v, k⟩, ⟨.flash, 15⟩, ⟨.run, r⟩] false m s)
    (hp : programPhase k m) : NextAll (Keeps s) (exec (.programByte S p v) s) := by
  simp only [exec, execProgramByte, State.stmt_of_epc h.1]
  unfold programPhase at hp
  split at hp
  case h_1 =>
    exact nextAll_need_keeps fun _ => nextAll_engFirstWrite_keeps h fun hw =>
      ⟨rfl, rfl, _, Dev.writeMode_unlock_of_calm hp hw⟩
  case h_2 =>
    obtain ⟨x, rfl⟩ := hp
    exact nextAll_need_keeps fun _ => nextAll_engWrite_keeps h fun hw => ⟨rfl, rfl, x, Dev.mode_of_u1 hw⟩
  case h_3 =>
    obtain ⟨x, rfl⟩ := hp
    exact nextAll_need_keeps fun _ => nextAll_engWrite_keeps h fun hw => ⟨rfl, rfl, Dev.mode_of_u2_program hw⟩
  case h_4 => obtain rfl := hp; exact nextAll_engWrite_keeps h fun hw => ⟨rfl, rfl, Dev.calm_of_p1 hw⟩
  case h_5 => exact nextAll_next_keeps (h.call ⟨rfl, rfl, rfl, hp⟩)
  case h_6 => exact nextAll_next_keeps (h.ret ⟨rfl, hp⟩)
  case h_7 => cases hp

/-- FLASH writes IF by its calls alone: a statement moves to one in which IF is the same, or calls. -/
theorem exec_flash_critical (h : Stands [⟨.flash, k⟩, ⟨.run, r⟩] (!flashMasked k) m s) (hm : m.calm) :
    NextAll CriticalInv (exec .flash s) := by
  simp only [exec, execFlash, State.stmt_of_epc h.1]
  split
  all_goals repeat' first
    | with_reducible exact (nextAll_fault _).2 trivial
    | with_reducible refine nextAll_need_critical fun _ => ?_
    | with_reducible refine nextAll_needImage fun _ _ => ?_
    | with_reducible refine (nextAll_next _).2 ?_
    | exact Stands.gotoIf h ⟨rfl, hm⟩ ⟨rfl, hm⟩
    | exact Stands.goto h ⟨rfl, hm⟩
    | exact Stands.ret h ⟨rfl, hm⟩
    | exact Stands.call h ⟨rfl, hm⟩
    | exact Stands.call h ⟨rfl, rfl, hm⟩

/-- RUN itself keeps IF = 1, and calls every procedure with it. -/
theorem exec_run_critical (h : Stands [⟨.run, k⟩] true m s) (hm : m.calm) : NextAll CriticalInv (exec .run s) := by
  have hkey : Stands [⟨.run, k⟩] true m s.keyTaken := by
    unfold State.keyTaken
    split <;> exact h
  simp only [exec, execRun, State.stmt_of_epc h.1]
  split
  all_goals repeat' first
    | with_reducible exact (nextAll_fault _).2 trivial
    | with_reducible refine nextAll_need_critical fun _ => ?_
    | with_reducible refine (nextAll_next _).2 ?_
    | exact Stands.goto h ⟨rfl, hm⟩
    | exact Stands.goto hkey ⟨rfl, hm⟩
    | exact Stands.call h ⟨rfl, hm⟩
    | exact Stands.stay h ⟨rfl, hm⟩

/-! ## Every step -/

/-- A statement at a position of a run from RUN. -/
theorem exec_keeps {f : Frame} (he : s.epc = f :: rest) (hs : Phase s.epc s.IF s.dev.mode) :
    NextAll (Keeps s) (exec f.op s) := by
  have h : Stands s.epc s.IF s.dev.mode s := ⟨rfl, rfl, rfl⟩
  cases phase_cases hs with
  | quiet i k rest' hi he' hp => cases he.symm.trans he'; exact (exec_quiet_critical hi (he' ▸ h) hp).keeps
  | csEnter k rest' he' hp => cases he.symm.trans he'; exact (exec_csEnter_critical (he' ▸ h) hp).keeps
  | csExit k rest' he' hp => cases he.symm.trans he'; exact (exec_csExit_critical (he' ▸ h) hp).keeps
  | detect S D k r he' hp => cases he.symm.trans he'; exact exec_detect_keeps (he' ▸ h) hp
  | eraseSector S p k r he' hb hp => cases he.symm.trans he'; exact exec_eraseSector_keeps (hb ▸ he' ▸ h) hp
  | programByte S p v k r he' hb hp => cases he.symm.trans he'; exact exec_programByte_keeps (hb ▸ he' ▸ h) hp
  | flash k r he' hb hm => cases he.symm.trans he'; exact (exec_flash_critical (hb ▸ he' ▸ h) hm).keeps
  | run k he' hb hm => cases he.symm.trans he'; exact (exec_run_critical (hb ▸ he' ▸ h) hm).keeps

theorem EngCase.keeps (h : EngCase s t) (hs : Phase s.epc s.IF s.dev.mode) : Keeps s t := by
  cases h with
  | idle h => exact fun _ _ => h ▸ hs
  | frame f rest he h => exact exec_keeps he hs t h
  | fetch i rest he => rw [he] at hs; cases hs
  | word w ws he => rw [he] at hs; cases hs

/-- The device's completion ends an operation that no sequence is in the middle of (R138, R140). -/
theorem State.complete_phase (hs : Phase s.epc s.IF s.dev.mode) :
    Phase s.complete.epc s.complete.IF s.complete.dev.mode := by
  cases hm : s.dev.mode with
  | ebusy sec => rw [State.complete_of_ebusy hm]; exact hs.completed (by rw [hm]; rfl)
  | pbusy pa pd => rw [State.complete_of_pbusy hm]; exact hs.completed (by rw [hm]; rfl)
  | read | u1 | u2 | id | e1 | e2 | e3 | p1 | indet =>
    rw [State.complete_of_not_busy (by simp [State.busy, hm])]
    exact hs

/-- The ISR reads only with IF = 1, when the device is in no sequence (R186, R265). -/
theorem isrStep_critical {q : PhysAddr} (h : isrStep q s = .next t) (hs : Phase s.epc s.IF s.dev.mode) :
    CriticalInv t := by
  obtain ⟨-, rfl⟩ | ⟨hIF, ⟨v, hb⟩ | hb⟩ := isrStep_cases h
  · exact fun _ => hs
  · rw [hIF] at hs
    obtain ⟨m', hm', ht⟩ := State.busRead_ok_stands ⟨rfl, hIF, rfl⟩ hb
    exact ht.stay ((hm'.eq_of_calm hs.calm_of_enabled).symm ▸ hs)
  · exact .of_faults (State.busRead_stop_faults hb)

/-- Settles O14: ENG's statement by the position, DEV's completion, and the ISR's read with IF = 1. -/
theorem stepKeepsCriticalSection : Obligations.StepKeepsCriticalSection := by
  intro s t hs h hreach
  obtain ⟨hf, hcase⟩ := step_cases h
  have hs : Phase s.moveTaken.epc s.moveTaken.IF s.moveTaken.dev.mode := by
    rw [State.moveTaken_epc, State.moveTaken_IF, State.moveTaken_dev]
    exact hs hf
  have hreach : s.moveTaken.cfg.memcfg = .real ∨ WritesReachDevice s.moveTaken t := by
    rwa [WritesReachDevice, State.moveTaken_cfg, State.moveTaken_hist]
  cases hcase with
  | eng _ h => exact h.keeps hs hreach
  | dev _ h => exact h ▸ fun _ => State.complete_phase hs
  | tick _ h => exact h ▸ fun _ => hs
  | isr p _ h => exact isrStep_critical h hs

end Machine
end Sys2Proof
end

section
/-! PROOFS. FLASH's own statements (R219, R220): each run of them between two calls. -/

namespace Sys2Proof

namespace Machine

variable {s t u : State} {rest : List Frame} {n m : Nat} {c : Int}

theorem flash_enter (hlive : s.live) (he : s.epc = ⟨.flash, 0⟩ :: rest) : engRun 4 s = .next { s with
    IF := false, regs := { s.regs with CNT := some 0, i := some 0 }, epc := ⟨.flash, 3⟩ :: rest } := by
  obtain ⟨hfaults, hexit, hhalted⟩ := hlive
  simp [engRun, engStep, State.ended, exec, execFlash, execCsEnter, State.stmt, State.goto, State.setRegs, State.call,
    State.setIF, State.ret, *]

theorem flash_compare (hlive : s.live) (he : s.epc = ⟨.flash, 3⟩ :: rest) (hi : s.regs.i = some n) (hn : n < s.NBLK) :
    engRun 2 s = .next { s with epc := ⟨.compareBlock n, 0⟩ :: ⟨.flash, 5⟩ :: rest } := by
  obtain ⟨hfaults, hexit, hhalted⟩ := hlive
  simp [engRun, engStep, State.ended, exec, execFlash, State.stmt, State.goto, State.call, *]

theorem flash_leave (hlive : s.live) (he : s.epc = ⟨.flash, 3⟩ :: rest) (hi : s.regs.i = some n) (hn : s.NBLK ≤ n) :
    engRun 4 s = .next { s with IF := true, epc := rest } := by
  obtain ⟨hfaults, hexit, hhalted⟩ := hlive
  simp [engRun, engStep, State.ended, exec, execFlash, execCsExit, State.stmt, State.goto, State.call, State.setIF,
    State.ret, hn.not_gt, *]

theorem flash_passOver (hlive : s.live) (he : s.epc = ⟨.flash, 5⟩ :: rest) (hi : s.regs.i = some n)
    (heq : s.regs.equal = some true) :
    engRun 2 s = .next { s with regs := { s.regs with i := some (n + 1) }, epc := ⟨.flash, 3⟩ :: rest } := by
  obtain ⟨hfaults, hexit, hhalted⟩ := hlive
  simp [engRun, engStep, State.ended, exec, execFlash, State.stmt, State.goto, State.setRegs, *]

theorem flash_erase (hlive : s.live) (he : s.epc = ⟨.flash, 5⟩ :: rest) (hi : s.regs.i = some n)
    (heq : s.regs.equal = some false) :
    engRun 2 s = .next { s with epc := ⟨.eraseSector .reg (s.pbase n), 0⟩ :: ⟨.flash, 7⟩ :: rest } := by
  obtain ⟨hfaults, hexit, hhalted⟩ := hlive
  simp [engRun, engStep, State.ended, exec, execFlash, State.stmt, State.goto, State.call, State.pbase, *]

theorem flash_erased (hlive : s.live) (he : s.epc = ⟨.flash, 7⟩ :: rest) (hPR : s.regs.PR = some true) :
    engRun 2 s = .next { s with regs := { s.regs with b := some 0 }, epc := ⟨.flash, 13⟩ :: rest } := by
  obtain ⟨hfaults, hexit, hhalted⟩ := hlive
  simp [engRun, engStep, State.ended, exec, execFlash, State.stmt, State.goto, State.setRegs, *]

theorem exec_flash_program {v : Byte} (he : s.epc = ⟨.flash, 14⟩ :: rest) (hi : s.regs.i = some n)
    (hb : s.regs.b = some m) (hv : s.imgByte? n m = some v) : exec .flash s =
      .next { s with epc := ⟨.programByte .reg (s.pbase n + m) v, 0⟩ :: ⟨.flash, 15⟩ :: rest } := by
  simp [exec, execFlash, State.stmt, State.goto, State.call, needImage, he, hi, hb, hv]

theorem flash_program {v : Byte} (hlive : s.live) (he : s.epc = ⟨.flash, 13⟩ :: rest) (hi : s.regs.i = some n)
    (hb : s.regs.b = some m) (hm : m < SECTOR) (hv : s.imgByte? n m = some v) : engRun 2 s = .next { s with
      epc := ⟨.programByte .reg (s.pbase n + m) v, 0⟩ :: ⟨.flash, 15⟩ :: rest } := by
  have htest : exec .flash s = .next { s with epc := ⟨.flash, 14⟩ :: rest } := by
    simp [exec, execFlash, State.stmt, State.goto, he, hb, hm]
  exact (engRun_succ hlive he htest 1).trans
    (engRun_succ (by exact hlive) rfl (exec_flash_program rfl (by exact hi) (by exact hb) (by exact hv)) 0)

theorem flash_programmed (hlive : s.live) (he : s.epc = ⟨.flash, 15⟩ :: rest) (hPR : s.regs.PR = some true)
    (hb : s.regs.b = some m) :
    engRun 2 s = .next { s with regs := { s.regs with b := some (m + 1) }, epc := ⟨.flash, 13⟩ :: rest } := by
  obtain ⟨hfaults, hexit, hhalted⟩ := hlive
  simp [engRun, engStep, State.ended, exec, execFlash, State.stmt, State.goto, State.setRegs, *]

theorem flash_count (hlive : s.live) (he : s.epc = ⟨.flash, 13⟩ :: rest) (hi : s.regs.i = some n)
    (hb : s.regs.b = some m) (hm : SECTOR ≤ m) (hc : s.regs.CNT = some c) : engRun 3 s = .next { s with
      regs := { s.regs with CNT := some (c + 1), i := some (n + 1) }, epc := ⟨.flash, 3⟩ :: rest } := by
  obtain ⟨hfaults, hexit, hhalted⟩ := hlive
  simp [engRun, engStep, State.ended, exec, execFlash, State.stmt, State.goto, State.setRegs, hm.not_gt, *]

theorem flash_eraseTimeout (hlive : s.live) (he : s.epc = ⟨.flash, 7⟩ :: rest) (hPR : s.regs.PR = some false) :
    engRun 6 s = .next { s with
      err := some .eraseTimeout, IF := true, regs := { s.regs with CNT := some (-1) }, epc := rest } := by
  obtain ⟨hfaults, hexit, hhalted⟩ := hlive
  simp [engRun, engStep, State.ended, exec, execFlash, execCsExit, State.stmt, State.goto, State.setRegs, State.call,
    State.setIF, State.setErr, State.ret, *]

theorem flash_programTimeout (hlive : s.live) (he : s.epc = ⟨.flash, 15⟩ :: rest) (hPR : s.regs.PR = some false) :
    engRun 6 s = .next { s with
      err := some .programTimeout, IF := true, regs := { s.regs with CNT := some (-1) }, epc := rest } := by
  obtain ⟨hfaults, hexit, hhalted⟩ := hlive
  simp [engRun, engStep, State.ended, exec, execFlash, execCsExit, State.stmt, State.goto, State.setRegs, State.call,
    State.setIF, State.setErr, State.ret, *]

/-- Settles O50: FLASH's runs between two calls, path by path. -/
theorem flashErasesThenPrograms : Obligations.FlashErasesThenPrograms := by
  intro s k rest he hlive
  refine ⟨?_, fun n hi => ⟨?_, ?_, ?_, ?_, fun m hb => ⟨?_, ?_⟩⟩, ?_, ?_, ?_, ?_⟩
  · rintro rfl; exact flash_enter hlive he
  · rintro rfl; exact flash_compare hlive he hi
  · rintro rfl; exact flash_leave hlive he hi
  · rintro rfl; exact flash_passOver hlive he hi
  · rintro rfl; exact flash_erase hlive he hi
  · rintro v rfl; exact flash_program hlive he hi hb
  · rintro c rfl; exact flash_count hlive he hi hb
  · rintro rfl; exact flash_erased hlive he
  · rintro m rfl; exact flash_programmed hlive he
  · rintro rfl; exact flash_eraseTimeout hlive he
  · rintro rfl; exact flash_programTimeout hlive he

end Machine

end Sys2Proof
end

section
/-! PROOFS. DETECT (R182, R189): a sequence of writes, a loop of reads that uses up the stale ones, and an exit. -/

namespace Sys2Proof

namespace Machine

variable {s t u : State} {rest e : List Frame} {g : Regs} {l : List BusEvent} {n k j p d : Nat} {a : DevAddr}
  {S D : Operand Seg} {S' D' : Seg} {z : Nat} {x : Byte}

/-! ## What a run of the engine leaves -/

/-- `s` after the entries `l`, with another IF, count of draws, registers and EPC. -/
def State.onward (s : State) (b : Bool) (draws : Nat) (l : List BusEvent) (g : Regs) (epc : List Frame) : State :=
  { s with IF := b, draws := draws, hist := s.hist ++ l, regs := g, epc := epc }

/-- The engine has come from `s` to `t` by the entries `l`, and nothing else differs but IF, which is `b`, the
registers `g`, EPC and the count of draws. -/
def Onward (s : State) (b : Bool) (l : List BusEvent) (g : Regs) (epc : List Frame) (t : State) : Prop :=
  ∃ draws, t = s.onward b draws l g epc

theorem filter_writes_of_readsOnly (h : readsOnly l) : l.filter (fun e => e.kind = .W) = [] := by
  simpa using fun e he => by simp [(h e he).2]

/-! ## DETECT (R182, R189) -/

/-- The writes that open DETECT's sequence, at its statements 1 to 3 (R182). -/
def detectWrites (S' : Seg) : List (Nat × Byte) := [(unlock1 S', 0xAA), (unlock2 S', 0x55), (unlock1 S', 0x90)]

theorem exec_detect_first (he : s.epc = ⟨.detect S D, 0⟩ :: rest) : exec (.detect S D) s =
    .next { s with epc := ⟨.csEnter, 0⟩ :: ⟨.detect S D, 1⟩ :: rest } := by
  simp [exec, execDetect, State.stmt, State.call, State.goto, he]

theorem exec_detect_write (hS : operand? S s.regs.S = some S') (hk : s.stmt = k + 1)
    (hw : (detectWrites S')[k]? = some (z, x)) :
    exec (.detect S D) s = engWrite z x s (·.goto (k + 1 + 1)) := by
  match k, hw with
  | 0, hw | 1, hw | 2, hw =>
    cases hw
    simp [exec, execDetect, hk, hS]

theorem exec_detect_exit (hS : operand? S s.regs.S = some S') (hk : s.stmt = 9) :
    exec (.detect S D) s = engWrite (unlock1 S') 0xF0 s (·.goto 10) := by
  simp [exec, execDetect, hk, hS]

/-- DETECT enters the critical section (R180, R182). -/
theorem detect_enter (hlive : s.live) (he : s.epc = ⟨.detect S D, 0⟩ :: rest) :
    engRun 2 s = .next { s with IF := false, epc := ⟨.detect S D, 1⟩ :: rest } :=
  (engRun_succ hlive he (exec_detect_first he) 1).trans (engRun_succ (by exact hlive) rfl (exec_csEnter rfl) 0)

/-- DETECT's entry into ID mode (R126, R182). -/
theorem detect_ownRun (he : s.epc = ⟨.detect S D, 1⟩ :: rest) (hS : operand? S s.regs.S = some S')
    (hwindow : s.window S') (hmode : s.dev.mode = .read ∨ ∃ n, s.dev.mode = .id n) :
    OwnRun (.detect S D) 3 s
      (s.writing (.id s.cfg.idStale) (writeEvents (detectWrites S')) (⟨.detect S D, 4⟩ :: rest)) := by
  obtain ⟨⟨a1, h1, ho1⟩, ⟨a2, h2, ho2⟩⟩ := hwindow
  obtain ⟨b, hfirst⟩ : ∃ b, Dev.writeMode s.cfg s.dev.mode a1 0xAA = some (.u1 b) := by
    rcases hmode with hread | ⟨n, hid⟩
    · exact ⟨_, hread ▸ Dev.writeMode_read ho1⟩
    · exact ⟨_, hid ▸ Dev.writeMode_id ho1⟩
  have hx {m l k z x} := exec_detect_write (s := s.writing m l (⟨.detect S D, k + 1⟩ :: rest)) (D := D) (k := k)
    (z := z) (x := x) hS rfl
  exact .start rfl he <|
    .write h1 hfirst (hx rfl) <|
    .write h2 (Dev.writeMode_u1 ho2) (hx rfl) <|
    .write h1 (Dev.writeMode_u2_swid ho1) (hx rfl) <|
    .nil _

/-- A read in ID mode uses up a stale read; with none left, offsets 0 and 1 give the identification bytes (R127). -/
theorem State.busRead_id (hp : s.reaches p a) : ∃ x d', (s.reading (.id k) d l g e).busRead .eng p =
      .ok x (s.reading (.id (k - 1)) d' (l ++ [⟨.eng, .R, BitVec.ofNat 20 p, x⟩]) g e) ∧
    (k = 0 → DevAddr.boff a = 0 → x = s.cfg.vendorId) ∧ (k = 0 → DevAddr.boff a = 1 → x = s.cfg.deviceId) := by
  obtain ⟨hq, ha⟩ := State.reaches_iff.mp hp
  rw [State.busRead_device hq (by exact ha)]
  have hdraw {k' : Nat} (h : (s.reading (.id k) d l g e).readAnswer a = .draw (.id k')) :
      (s.reading (.id k) d l g e).devRead .eng (BitVec.ofNat 20 p) a = .ok (Config.draw d)
        (s.reading (.id k') (d + 1) (l ++ [⟨.eng, .R, BitVec.ofNat 20 p, Config.draw d⟩]) g e) := by
    rw [State.devRead_draw h]
    simp [State.reading, State.setMode, State.drawn, State.log, State.fresh]
  have hbyte {x : Byte} (hk : k = 0) (h : (s.reading (.id k) d l g e).readAnswer a = .byte x) :
      (s.reading (.id k) d l g e).devRead .eng (BitVec.ofNat 20 p) a = .ok x
        (s.reading (.id (k - 1)) d (l ++ [⟨.eng, .R, BitVec.ofNat 20 p, x⟩]) g e) := by
    subst hk
    simp only [State.devRead, h]
    simp [State.reading, State.log]
  cases k with
  | succ k => exact ⟨_, _, hdraw rfl, nofun, nofun⟩
  | zero =>
    by_cases h0 : DevAddr.boff a = 0
    · have h1 : DevAddr.boff a ≠ 1 := by rw [h0]; decide
      exact ⟨_, _, hbyte rfl (if_pos h0), fun _ _ => rfl, fun _ h => absurd h h1⟩
    · by_cases h1 : DevAddr.boff a = 1
      · exact ⟨_, _, hbyte rfl ((if_neg h0).trans (if_pos h1)), fun _ h => absurd h h0, fun _ _ => rfl⟩
      · exact ⟨_, _, hdraw ((if_neg h0).trans (if_neg h1)), fun _ h => absurd h h0, fun _ h => absurd h h1⟩

theorem readsOnly_append {l' : List BusEvent} (h : readsOnly l) (h' : readsOnly l') : readsOnly (l ++ l') :=
  List.forall_mem_append.mpr ⟨h, h'⟩

theorem readsOnly_singleton (q : PhysAddr) (x : Byte) : readsOnly [⟨.eng, .R, q, x⟩] := by simp [readsOnly]

/-- A statement that reads in ID mode, writes registers by `f`, and moves on. -/
theorem OwnRun.read_id {i : Instr} {k' : Nat} {f : Byte → Regs → Regs} (hp : s.reaches p a)
    (hx : exec i (s.reading (.id n) d l g (⟨i, k⟩ :: rest)) =
      engRead p (s.reading (.id n) d l g (⟨i, k⟩ :: rest)) fun x t => (t.setRegs (f x)).goto k') :
    ∃ x d', OwnRun i 1 (s.reading (.id n) d l g (⟨i, k⟩ :: rest))
        (s.reading (.id (n - 1)) d' (l ++ [⟨.eng, .R, BitVec.ofNat 20 p, x⟩]) (f x g) (⟨i, k'⟩ :: rest)) ∧
      (n = 0 → DevAddr.boff a = 0 → x = s.cfg.vendorId) ∧ (n = 0 → DevAddr.boff a = 1 → x = s.cfg.deviceId) := by
  obtain ⟨x, d', hb, hid⟩ := State.busRead_id (k := n) (d := d) (l := l) (g := g) (e := ⟨i, k⟩ :: rest) hp
  exact ⟨x, d', .cons rfl (hx.trans (by rw [engRead, hb]; rfl)) (.nil _) id, hid⟩

/-- The registers with those that DETECT writes replaced (R31, R182). -/
def Regs.detected (g : Regs) (V W : Option Byte) (rep : Nat) : Regs := { g with VID := V, DID := W, rep := some rep }

/-- DETECT has read D:0 `j` times since it stood at `s`, with VID as read last (R182). -/
def DetectAt (s : State) (S D : Operand Seg) (rest : List Frame) (j : Nat) (t : State) : Prop :=
  ∃ draws l V, t = s.reading (.id (s.cfg.idStale - j)) draws l (s.regs.detected V s.regs.DID j)
      (⟨.detect S D, 5⟩ :: rest) ∧
    readsOnly l ∧ l.length = j ∧ (s.cfg.idStale < j → V = some s.cfg.vendorId)

variable {V W : Option Byte} {m : DevMode}

theorem detect_start (he : s.epc = ⟨.detect S D, 4⟩ :: rest) (hm : s.dev.mode = .id s.cfg.idStale) :
    OwnLeads (.detect S D) s (DetectAt s S D rest 0) := by
  refine ⟨1, s.reading (.id s.cfg.idStale) s.draws [] (s.regs.detected s.regs.VID s.regs.DID 0)
    (⟨.detect S D, 5⟩ :: rest), .cons he ?_ (.nil _) id, s.draws, [], s.regs.VID, rfl, by simp [readsOnly], rfl, nofun⟩
  simp [exec, execDetect, State.stmt, State.setRegs, State.goto, State.reading, Regs.detected, he, ← hm]

/-- The test of DETECT's `repeat` (R182). -/
theorem detect_test : OwnRun (.detect S D) 1
    (s.reading m d l (g.detected V W j) (⟨.detect S D, 5⟩ :: rest))
    (s.reading m d l (g.detected V W j) (⟨.detect S D, if j < s.cfg.idReads then 6 else 8⟩ :: rest)) :=
  .cons rfl rfl (.nil _) id

/-- One turn of DETECT's `repeat` (R182). -/
theorem detect_turn (hD : operand? D (some s.D) = some D') (hp : s.reaches (physical D' 0) a)
    (ha : DevAddr.boff a = 0) (hj : j < s.cfg.idReads) (h : DetectAt s S D rest j u) :
    OwnLeads (.detect S D) u (DetectAt s S D rest (j + 1)) := by
  obtain ⟨draws, l, V, rfl, hl, hlen, -⟩ := h
  refine detect_test.andThen ?_
  rw [if_pos hj]
  obtain ⟨x, d', hread, hx, -⟩ := OwnRun.read_id (i := .detect S D) (k := 6) (k' := 7) (n := s.cfg.idStale - j)
    (d := draws) (l := l) (g := s.regs.detected V s.regs.DID j) (rest := rest)
    (f := fun x g => { g with VID := some x })
    hp (by simp [exec, execDetect, State.stmt, State.reading, hD])
  rw [Nat.sub_sub] at hread
  exact hread.andThen ⟨1, _, .cons rfl rfl (.nil _) id, d', l ++ [⟨.eng, .R, BitVec.ofNat 20 (physical D' 0), x⟩],
    some x, rfl, readsOnly_append hl (readsOnly_singleton _ x), by simp [hlen], fun hlt => by rw [hx (by omega) ha]⟩

/-- All turns of the `repeat`, by induction on their number. -/
theorem detect_turns (he : s.epc = ⟨.detect S D, 4⟩ :: rest) (hm : s.dev.mode = .id s.cfg.idStale)
    (hD : operand? D (some s.D) = some D') (hp : s.reaches (physical D' 0) a) (ha : DevAddr.boff a = 0)
    (hj : j ≤ s.cfg.idReads) : OwnLeads (.detect S D) s (DetectAt s S D rest j) := by
  induction j with
  | zero => exact detect_start he hm
  | succ j ih => exact (ih (by omega)).bind fun u => detect_turn hD hp ha hj

/-- DETECT's exit write (R128, R182). -/
theorem detect_exitWrite (he : s.epc = ⟨.detect S D, 9⟩ :: rest) (hS : operand? S s.regs.S = some S')
    (hwindow : s.window S') (hm : s.dev.mode = .id n) : OwnRun (.detect S D) 1 s
      (s.writing .read [⟨.eng, .W, BitVec.ofNat 20 (unlock1 S'), 0xF0⟩] (⟨.detect S D, 10⟩ :: rest)) := by
  obtain ⟨⟨a, h, ho⟩, -⟩ := hwindow
  have hmode : Dev.writeMode s.cfg (.id n) a 0xF0 = some .read := by simp [Dev.writeMode, ho]
  exact .start hm he <| .write h hmode (exec_detect_exit (by exact hS) rfl) (.nil _)

/-- Behind the `repeat` DETECT reads DID and leaves ID mode (R128, R182). -/
theorem detect_exit (hS : operand? S s.regs.S = some S') (hD : operand? D (some s.D) = some D')
    (hwindow : s.window S') (hp : s.reaches (physical D' 1) a) (ha : DevAddr.boff a = 1)
    (hstale : s.cfg.idStale < s.cfg.idReads) (h : DetectAt s S D rest s.cfg.idReads u) :
    OwnLeads (.detect S D) u fun t => ∃ draws l, readsOnly l ∧ l.length = s.cfg.idReads + 1 ∧
      t = s.reading .read draws (l ++ [⟨.eng, .W, BitVec.ofNat 20 (unlock1 S'), 0xF0⟩])
        (s.regs.detected (some s.cfg.vendorId) (some s.cfg.deviceId) s.cfg.idReads) (⟨.detect S D, 10⟩ :: rest) := by
  obtain ⟨draws, l, V, rfl, hl, hlen, hV⟩ := h
  obtain rfl := hV hstale
  rw [Nat.sub_eq_zero_of_le hstale.le]
  refine detect_test.andThen ?_
  rw [if_neg (lt_irrefl _)]
  obtain ⟨x, d', hread, -, hx⟩ := OwnRun.read_id (i := .detect S D) (k := 8) (k' := 9) (n := 0) (d := draws) (l := l)
    (g := s.regs.detected (some s.cfg.vendorId) s.regs.DID s.cfg.idReads) (rest := rest)
    (f := fun x g => { g with DID := some x }) hp (by simp [exec, execDetect, State.stmt, State.reading, hD])
  obtain rfl := hx rfl ha
  refine hread.andThen ⟨1, _, detect_exitWrite rfl (by exact hS) (by exact hwindow) rfl, d', _,
    readsOnly_append hl (readsOnly_singleton (BitVec.ofNat 20 (physical D' 1)) s.cfg.deviceId), by simp [hlen], ?_⟩
  simp [State.writing, State.reading, Regs.detected]

/-- DETECT leaves the critical section and returns (R181, R182). -/
theorem detect_leave (hlive : s.live) (he : s.epc = ⟨.detect S D, 10⟩ :: rest) :
    engRun 3 s = .next { s with IF := true, epc := rest } := by
  obtain ⟨hfaults, hexit, hhalted⟩ := hlive
  simp [engRun, engStep, State.ended, exec, execDetect, execCsExit, State.stmt, State.goto, State.call, State.setIF,
    State.ret, *]

/-- DETECT's cycles, from its first write to its last. -/
theorem detect_body (he : s.epc = ⟨.detect S D, 1⟩ :: rest) (hS : operand? S s.regs.S = some S')
    (hD : operand? D (some s.D) = some D') (hwindow : s.window S') (hsector : s.idSector D')
    (hmode : s.dev.mode = .read ∨ ∃ n, s.dev.mode = .id n) (hstale : s.cfg.idStale < s.cfg.idReads) :
    OwnLeads (.detect S D) s fun t => ∃ draws l, readsOnly l ∧ l.length = s.cfg.idReads + 1 ∧
      t = s.reading .read draws
        (writeEvents (detectWrites S') ++ (l ++ [⟨.eng, .W, BitVec.ofNat 20 (unlock1 S'), 0xF0⟩]))
        (s.regs.detected (some s.cfg.vendorId) (some s.cfg.deviceId) s.cfg.idReads) (⟨.detect S D, 10⟩ :: rest) := by
  obtain ⟨⟨a0, h0, ho0⟩, ⟨a1, h1, ho1⟩⟩ := hsector
  refine (detect_ownRun he hS hwindow hmode).andThen ?_
  have hturns := detect_turns (s := s.writing (.id s.cfg.idStale) (writeEvents (detectWrites S'))
    (⟨.detect S D, 4⟩ :: rest)) rfl rfl hD h0 ho0 le_rfl
  refine hturns.bind fun u hu => (detect_exit (by exact hS) (by exact hD) (by exact hwindow)
    (by exact h1) ho1 (by exact hstale) hu).bind ?_
  rintro t ⟨draws, l, hl, hlen, rfl⟩
  exact .here ⟨draws, l, hl, hlen, by simp [State.reading, State.writing]⟩

/-- The whole of DETECT (R182, R189). -/
theorem detect_ends (hlive : s.live) (he : s.epc = ⟨.detect S D, 0⟩ :: rest) (hS : operand? S s.regs.S = some S')
    (hD : operand? D (some s.D) = some D') (hwindow : s.window S') (hsector : s.idSector D')
    (hmode : s.dev.mode = .read ∨ ∃ n, s.dev.mode = .id n) (hstale : s.cfg.idStale < s.cfg.idReads) :
    EngLeads s fun t => ∃ l, l.length = s.cfg.idReads + 5 ∧ (l.filter fun e => e.kind = .W).length = 4 ∧
      Onward (s.setMode .read) true l
        (s.regs.detected (some s.cfg.vendorId) (some s.cfg.deviceId) s.cfg.idReads) rest t := by
  refine .after (detect_enter hlive he) ?_
  have hbody := detect_body (s := { s with IF := false, epc := ⟨.detect S D, 1⟩ :: rest }) rfl hS hD hwindow hsector
    hmode hstale
  refine (hbody.engLeads hlive).bind ?_
  rintro t ⟨draws, l, hl, hlen, rfl⟩
  refine .after (detect_leave hlive rfl) (.here ⟨writeEvents (detectWrites S') ++
    (l ++ [⟨.eng, .W, BitVec.ofNat 20 (unlock1 S'), 0xF0⟩]), ?_, ?_, draws, ?_⟩)
  · simp [hlen, writeEvents, detectWrites]
  · simp [filter_writes_of_readsOnly hl, writeEvents, detectWrites]
  · simp [State.reading, State.onward, State.setMode, Regs.detected]

/-- Settles O41: the sequence of DETECT from its entry to its return. -/
theorem detectReadsIdBytes : Obligations.DetectReadsIdBytes := by
  intro s S D S' D' rest he hlive hS hD hwindow hsector hmode hstale
  refine ⟨exec_detect_first he, ?_⟩
  obtain ⟨m, t, hrun, l, hlen, -, draws, rfl⟩ := detect_ends hlive he hS hD hwindow hsector hmode hstale
  refine ⟨m, _, hrun, rfl, rfl, rfl, rfl, rfl, hlive.1, rfl, ?_⟩
  simp [State.onward, hlen, Nat.add_assoc]

end Machine

end Sys2Proof
end

section
/-! PROOFS. The whole run on memory that already holds the image (R221, R226, R228): the procedures that it calls, each
from its call to its return, then RUN's statements between them. -/

namespace Sys2Proof

namespace Machine

variable {s t u : State} {i : Instr} {rest e : List Frame} {g : Regs} {l : List BusEvent} {n m k p : Nat}
  {S D : Operand Seg} {L : Operand Nat} {S' D' : Seg} {Q : State → Prop}

/-! ## Runs of one procedure that do not return are the engine's own

A procedure of rank 1 calls nothing, so that between two states in which its frame is on top of the same rest it never
left the top. -/

theorem exec_live (h : exec i s = .next t) (hrun : i ≠ .run) (hhalt : i ≠ .halt) (hf : t.faults = []) (hs : s.live) :
    t.live := by
  obtain ⟨hout, hhalted, -⟩ := outputWriters i s t h
  exact ⟨hf, (hout hrun).2.trans hs.2.1, (hhalted hhalt).trans hs.2.2⟩

theorem execN_faults_subset (h : execN i m s = .next t) : s.faults ⊆ t.faults := by
  induction m generalizing s with
  | zero => cases h; exact List.Subset.refl _
  | succ m ih =>
    cases hx : exec i s with
    | next v => rw [execN_succ hx] at h; exact List.Subset.trans (exec_coreStep hx).faults_subset (ih h)
    | fault r => simp [execN, hx] at h
    | refused r => simp [execN, hx] at h

/-- A statement of a procedure of rank 1 stays in its frame or returns. -/
theorem exec_epc_of_rank_one (hrank : i.rank = 1) (he : s.epc = ⟨i, k⟩ :: rest) (h : exec i s = .next t) :
    (∃ k', t.epc = ⟨i, k'⟩ :: rest) ∨ t.epc = rest := by
  have hstep := exec_epc h
  rw [he] at hstep
  generalize t.epc = e at hstep ⊢
  cases hstep with
  | stay => exact .inl ⟨k, rfl⟩
  | goto k' => exact .inl ⟨k', rfl⟩
  | ret => exact .inr rfl
  | call j k' hj =>
    have hpos := (Finset.mem_Icc.mp j.rank_mem).1
    omega

theorem execN_epc_length_le (hrank : i.rank = 1) (h : execN i m s = .next t) : t.epc.length ≤ s.epc.length := by
  induction m generalizing s with
  | zero => cases h; exact le_rfl
  | succ m ih =>
    cases hx : exec i s with
    | next v =>
      rw [execN_succ hx] at h
      refine (ih h).trans ?_
      have hstep := exec_epc hx
      generalize v.epc = e at hstep ⊢
      cases hstep with
      | stay => exact le_rfl
      | goto k' => cases s.epc <;> exact le_rfl
      | ret => simp
      | call j k' hj =>
        have hpos := (Finset.mem_Icc.mp j.rank_mem).1
        omega
    | fault r => simp [execN, hx] at h
    | refused r => simp [execN, hx] at h

theorem ownRun_of_execN (hrank : i.rank = 1) (hhalt : i ≠ .halt) (he : s.epc = ⟨i, k⟩ :: rest)
    (h : execN i m s = .next t) (ht : ∃ k', t.epc = ⟨i, k'⟩ :: rest) (hf : t.faults = []) : OwnRun i m s t := by
  induction m generalizing s k with
  | zero => cases h; exact .nil _
  | succ m ih =>
    cases hx : exec i s with
    | next v =>
      rw [execN_succ hx] at h
      have hrun : i ≠ .run := by rintro rfl; cases hrank
      have hv : v.faults = [] := List.subset_nil.mp (hf ▸ execN_faults_subset h)
      rcases exec_epc_of_rank_one hrank he hx with ⟨k', hk'⟩ | hret
      · exact .cons he hx (ih hk' h) (exec_live hx hrun hhalt hv)
      · obtain ⟨k', ht⟩ := ht
        have hle := execN_epc_length_le hrank h
        rw [ht, hret] at hle
        simp at hle
    | fault r => simp [execN, hx] at h
    | refused r => simp [execN, hx] at h

/-- What a run of a procedure leads to, while it does not return, the engine comes to. -/
theorem Leads.own (h : Leads i s Q) (hrank : i.rank = 1) (hhalt : i ≠ .halt) (he : s.epc = ⟨i, k⟩ :: rest)
    (hQ : ∀ t, Q t → t.faults = [] ∧ ∃ k', t.epc = ⟨i, k'⟩ :: rest) : OwnLeads i s Q := by
  obtain ⟨m, t, hm, ht⟩ := h
  obtain ⟨hf, hepc⟩ := hQ t ht
  exact ⟨m, t, ownRun_of_execN hrank hhalt he hm hepc hf, ht⟩

/-! ## Reads in READ mode -/

theorem State.readable_of_shows {v : Byte} (h : s.shows p v) : s.readable p := by
  obtain ⟨q, hq, h⟩ := h
  refine ⟨q, hq, fun a ha => ?_⟩
  simp only [ha] at h
  simp [State.readAnswer, h.1]

theorem Seen.onward (h : Seen s l g e t) (hread : s.dev.mode = .read) : Onward s s.IF l g e t := by
  have hdev := h.afterReads.2 (by simp [hread])
  obtain ⟨m, draws, -, rfl⟩ := h
  exact ⟨draws, by rw [State.onward, ← hdev]; rfl⟩

theorem readsFrom_readsOnly (base c : Nat) (x : Nat → Byte) : readsOnly (readsFrom base c x) := by
  simp [readsOnly, readsFrom]

theorem readsFrom_length (base c : Nat) (x : Nat → Byte) : (readsFrom base c x).length = c := by
  simp [readsFrom]

theorem probeReads_readsOnly (S : Seg) (ps : List Nat) (x y : Nat → Byte) : readsOnly (probeReads S ps x y) := by
  simp only [readsOnly, probeReads, List.mem_flatMap]
  rintro e ⟨k, -, he⟩
  simp only [List.mem_cons, List.not_mem_nil, or_false] at he
  rcases he with rfl | rfl <;> exact ⟨rfl, rfl⟩

theorem probeReads_length (S : Seg) (ps : List Nat) (x y : Nat → Byte) :
    (probeReads S ps x y).length = 2 * ps.length := by
  simp [probeReads, Nat.mul_comm]

/-! ## COMPARE_BLOCK on a block that memory holds (R218, R221) -/

theorem Compared.count {w : Nat → Option Byte} {N c : Nat} {x : Nat → Byte} (h : Compared w N true c x) : c = N := by
  obtain ⟨-, hc, -⟩ | ⟨hok, -⟩ := h
  · exact hc
  · cases hok

theorem compareBlock_matches (hlive : s.live) (he : s.epc = ⟨.compareBlock k, 0⟩ :: rest)
    (heq : s.blockEqual k) : OwnLeads (.compareBlock k) s fun t => ∃ l b, readsOnly l ∧ l.length = SECTOR ∧
      Seen s l { s.regs with b := b, equal := some true } rest t := by
  have hblock : s.blockReadable k := fun b hb =>
    let ⟨v, hv, hw⟩ := heq b hb
    ⟨State.readable_of_shows hv, v, hw⟩
  have hloop := (compareBlock_start he).bind fun u ⟨g, hg, hu⟩ =>
    (compareBlock_byteLoop hblock).leads_from (x := fun _ => 0) (Nat.zero_add _) hg hu (by simp) (by simp [Shown])
  refine (hloop.own rfl nofun he ?_).bind ?_
  · rintro t ⟨ok, c, x, g, j, -, ht, -⟩
    exact ⟨ht.faults.trans hlive.1, _, ht.epc⟩
  · rintro t ⟨ok, c, x, g, j, rfl, ht, hcompared, hshown⟩
    obtain rfl : ok = true :=
      (hcompared.ok_iff hshown fun b hb => let ⟨v, hv, _⟩ := heq b hb; ⟨v, hv⟩).mpr heq
    refine (ht.own fun m draws => .cons rfl rfl (.nil _) id).bind fun v hv => .here ⟨_, some j,
      readsFrom_readsOnly (s.pbase k) c x, ?_, hv⟩
    rw [readsFrom_length, hcompared.count]

/-! ## OVERLAP (R215) -/

/-- Behind the window OVERLAP returns to the engine's caller. -/
theorem overlap_leave {c : Nat} (hS : operand? S g.S = some S') (hc : g.curr = some c)
    (hge : ¬ c < S'.toNat + WINDOW_SEGS) (h : Seen s l g (⟨.overlap S D L, 2⟩ :: rest) u) :
    OwnLeads (.overlap S D L) u (Seen s l g rest) :=
  h.own fun m draws => .cons (t := s.reading m draws l g (⟨.overlap S D L, 9⟩ :: rest)) rfl
    (by simp [exec, execOverlap, State.stmt, State.reading, State.goto, hS, hc, hge]) (.cons rfl rfl (.nil _) id) id

theorem overlap_ends (hlive : s.live) (he : s.epc = ⟨.overlap S D L, 0⟩ :: rest) {L' : Nat}
    (hS : operand? S s.regs.S = some S') (hD : operand? D (some s.D) = some D') (hL : operand? L (some s.L) = some L')
    (hread : ∀ k, k < 16 → s.readable ((S'.toNat + 0x80 * k) * 16) ∧ s.readable ((S'.toNat + 0x80 * k) * 16 + 1)) :
    OwnLeads (.overlap S D L) s fun t => ∃ l o c b0 b1, readsOnly l ∧
      l.length = 2 * ((List.range 16).filter fun k => !inDestination D' L' (S'.toNat + 0x80 * k)).length ∧
      Seen s l { s.regs with OVL := some o, curr := c, b0 := b0, b1 := b1 } rest t := by
  have hscan := overlap_places he hS hD hL (fun k hk => hread k (mem_probedBelow.mp hk).1) le_rfl
  refine (hscan.own rfl nofun he ?_).bind ?_
  · rintro t ⟨x, y, l, o, b0, b1, -, ht⟩
    exact ⟨ht.faults.trans hlive.1, _, ht.epc⟩
  · rintro t ⟨x, y, l, o, b0, b1, hprobed, ht⟩
    obtain ⟨rfl, -, -⟩ := hprobed
    refine (overlap_leave (by exact hS) rfl (by simp) ht).bind fun v hv =>
      .here ⟨_, o, _, b0, b1, probeReads_readsOnly S' _ x y, ?_, hv⟩
    rw [probeReads_length, probedBelow_eq]

/-! ## FLASH on memory that holds the image (R219, R220, R221) -/

/-- FLASH stands at its block loop, with `n` blocks passed over. -/
def FlashAt (s : State) (rest : List Frame) (n : Nat) (t : State) : Prop :=
  ∃ l g, readsOnly l ∧ l.length = n * SECTOR ∧ g.CNT = some 0 ∧ g.i = some n ∧
    Onward s false l g (⟨.flash, 3⟩ :: rest) t

theorem flash_block (hlive : s.live) (hread : s.dev.mode = .read) (hn : n < s.NBLK) (heq : s.blockEqual n)
    (h : FlashAt s rest n u) : EngLeads u (FlashAt s rest (n + 1)) := by
  obtain ⟨l, g, hl, hlen, hCNT, hi, draws, rfl⟩ := h
  refine .after (flash_compare (by exact hlive) rfl (by exact hi) (by exact hn)) ?_
  have hcompare := compareBlock_matches (s := s.onward false draws l g
    (⟨.compareBlock n, 0⟩ :: ⟨.flash, 5⟩ :: rest)) hlive rfl heq
  refine (hcompare.engLeads hlive).bind ?_
  rintro t ⟨l', b, hl', hlen', ht⟩
  obtain ⟨draws', rfl⟩ := ht.onward hread
  refine .after (flash_passOver (n := n) (by exact hlive) rfl (by exact hi) rfl) (.here ⟨l ++ l',
    { g with b := b, equal := some true, i := some (n + 1) },
    readsOnly_append hl hl', ?_, hCNT, rfl, draws', ?_⟩)
  · rw [List.length_append, hlen, hlen', Nat.succ_mul]
  · simp [State.onward]

/-- All blocks, by induction on their number. -/
theorem flash_blocks (hlive : s.live) (he : s.epc = ⟨.flash, 0⟩ :: rest) (hread : s.dev.mode = .read)
    (heq : ∀ i, i < s.NBLK → s.blockEqual i) (hn : n ≤ s.NBLK) : EngLeads s (FlashAt s rest n) := by
  induction n with
  | zero =>
    refine .after (flash_enter hlive he) (.here ⟨[], { s.regs with CNT := some 0, i := some 0 },
      by simp [readsOnly], by simp, rfl, rfl, s.draws, ?_⟩)
    simp [State.onward]
  | succ n ih => exact (ih (by omega)).bind fun u => flash_block hlive hread (by omega) (heq n (by omega))

/-- FLASH leaves the device alone where memory holds the image, and counts no block (R221). -/
theorem flash_matches (hlive : s.live) (he : s.epc = ⟨.flash, 0⟩ :: rest) (hread : s.dev.mode = .read)
    (heq : ∀ i, i < s.NBLK → s.blockEqual i) : EngLeads s fun t => ∃ l g, readsOnly l ∧ l.length = s.L ∧
      g.CNT = some 0 ∧ Onward s true l g rest t := by
  refine (flash_blocks hlive he hread heq le_rfl).bind ?_
  rintro u ⟨l, g, hl, hlen, hCNT, hi, draws, rfl⟩
  exact .after (flash_leave (by exact hlive) rfl (by exact hi) le_rfl) (.here ⟨l, g, hl, hlen, hCNT, draws, rfl⟩)

/-! ## RUN's statements and the calls between them (R182, R183, R213, R215, R226) -/

/-- ID_DECODE on the bytes of a part (R183). -/
theorem idDecode_known {V W : Operand Byte} (P : Part) (hlive : s.live) (he : s.epc = ⟨.idDecode V W, 0⟩ :: rest)
    (hV : operand? V s.regs.VID = some VENDOR_ID) (hW : operand? W s.regs.DID = some P.code) :
    EngLeads s (· = { s with regs := { s.regs with PARTF := some (.known P) }, epc := rest }) := by
  obtain ⟨hfaults, hexit, hhalted⟩ := hlive
  cases P <;>
    [refine ⟨2, _, ?_, rfl⟩; refine ⟨3, _, ?_, rfl⟩; refine ⟨4, _, ?_, rfl⟩; refine ⟨5, _, ?_, rfl⟩] <;>
    simp [engRun, engStep, State.ended, exec, execIdDecode, idTest, idSet, identifies, Part.code, State.stmt,
      State.goto, State.setRegs, State.ret, *]

/-- PLAN's segment (R213). -/
def plannedSegment (D : Seg) (L : Nat) : Seg :=
  planSegment (if planRoundsUp (physical D 0) (planFloor (physical D 0)) L then planFloor (physical D 0) + WINDOW
    else planFloor (physical D 0))

/-- RUN's CAL under MEMCFG = TEST (R162, R226). -/
theorem run_cal (hlive : s.live) (he : s.epc = ⟨.run, 0⟩ :: rest) (hc : s.cfg.memcfg = .test) :
    engRun 3 s = .next { s with regs := { s.regs with T := some s.cfg.calSentinel }, epc := ⟨.run, 1⟩ :: rest } := by
  obtain ⟨hfaults, hexit, hhalted⟩ := hlive
  simp [engRun, engStep, State.ended, exec, execRun, execCal, State.stmt, State.goto, State.setRegs, State.call,
    State.ret, *]

/-- PLAN's registers: the destination, the rounded address and its segment (R213). -/
def Regs.planned (g : Regs) (D : Seg) (L : Nat) : Regs :=
  let seq := planFloor (physical D 0)
  { g with
    dest := some (physical D 0)
    seq := some (if planRoundsUp (physical D 0) seq L then seq + WINDOW else seq)
    S := some (plannedSegment D L) }

/-- RUN's PLAN (R213, R226). -/
theorem run_plan (hlive : s.live) (he : s.epc = ⟨.run, 1⟩ :: rest) :
    EngLeads s (· = { s with regs := s.regs.planned s.D s.L, epc := ⟨.run, 2⟩ :: rest }) := by
  obtain ⟨hfaults, hexit, hhalted⟩ := hlive
  cases hround : planRoundsUp (physical s.D 0) (planFloor (physical s.D 0)) s.L <;>
    [refine ⟨5, _, ?_, rfl⟩; refine ⟨6, _, ?_, rfl⟩] <;> rw [State.L, State.NBLK] at hround <;>
    simp [engRun, engStep, State.ended, exec, execRun, execPlan, operand?, State.stmt, State.goto, State.setRegs,
      State.call, State.ret, Regs.planned, plannedSegment, State.L, State.NBLK, *]

/-- RUN's OVERLAP in READ mode (R215, R226). -/
theorem run_overlap (hlive : s.live) (he : s.epc = ⟨.run, 2⟩ :: rest) (hread : s.dev.mode = .read)
    (hS : s.regs.S = some S')
    (hplaces : ∀ k, k < 16 → s.readable ((S'.toNat + 0x80 * k) * 16) ∧ s.readable ((S'.toNat + 0x80 * k) * 16 + 1)) :
    EngLeads s fun t => ∃ l g o, readsOnly l ∧
      l.length = 2 * ((List.range 16).filter fun k => !inDestination s.D s.L (S'.toNat + 0x80 * k)).length ∧
      g.S = some S' ∧ g.OVL = some o ∧ Onward s s.IF l g (⟨.run, 3⟩ :: rest) t := by
  have hcall : exec .run s = .next { s with epc := ⟨.overlap .reg .reg .reg, 0⟩ :: ⟨.run, 3⟩ :: rest } := by
    simp [exec, execRun, State.stmt, State.goto, State.call, he]
  have hscan := overlap_ends (s := { s with epc := ⟨.overlap .reg .reg .reg, 0⟩ :: ⟨.run, 3⟩ :: rest }) hlive rfl hS rfl
    rfl hplaces
  refine .after (engRun_succ hlive he hcall 0) ((hscan.engLeads hlive).bind ?_)
  rintro t ⟨l, o, c, b0, b1, hl, hlen, ht⟩
  exact .here ⟨l, { s.regs with OVL := some o, curr := c, b0 := b0, b1 := b1 }, o, hl, hlen, hS, rfl,
    ht.onward hread⟩

/-- RUN's ID_DECODE on the bytes of a part (R183, R226). -/
theorem run_idDecode (P : Part) (hlive : s.live) (he : s.epc = ⟨.run, 4⟩ :: rest) (hV : s.regs.VID = some VENDOR_ID)
    (hW : s.regs.DID = some P.code) :
    EngLeads s (· = { s with regs := { s.regs with PARTF := some (.known P) }, epc := ⟨.run, 5⟩ :: rest }) := by
  have hcall : exec .run s = .next { s with epc := ⟨.idDecode .reg .reg, 0⟩ :: ⟨.run, 5⟩ :: rest } := by
    simp [exec, execRun, State.stmt, State.goto, State.call, he]
  exact .after (engRun_succ hlive he hcall 0) (idDecode_known P (by exact hlive) rfl hV hW)

/-- RUN's DETECT and ID_DECODE on a part's bytes (R182, R183, R226). -/
theorem run_identify (P : Part) (hlive : s.live) (he : s.epc = ⟨.run, 3⟩ :: rest) (hread : s.dev.mode = .read)
    (hS : s.regs.S = some S') (hwindow : s.window S') (hsector : s.idSector s.D)
    (hstale : s.cfg.idStale < s.cfg.idReads) (hvendor : s.cfg.vendorId = VENDOR_ID)
    (hdevice : s.cfg.deviceId = P.code) :
    EngLeads s fun t => ∃ l g, l.length = s.cfg.idReads + 5 ∧ (l.filter fun e => e.kind = .W).length = 4 ∧
      g.PARTF = some (.known P) ∧ g.OVL = s.regs.OVL ∧ Onward s true l g (⟨.run, 5⟩ :: rest) t := by
  have hcall : exec .run s = .next { s with epc := ⟨.detect .reg .reg, 0⟩ :: ⟨.run, 4⟩ :: rest } := by
    simp [exec, execRun, State.stmt, State.goto, State.call, he]
  refine .after (engRun_succ hlive he hcall 0)
    (.bind (detect_ends (by exact hlive) rfl hS rfl hwindow hsector (.inl hread) hstale) ?_)
  rintro t ⟨l, hlen, hwrites, draws, rfl⟩
  refine .bind (run_idDecode P (by exact hlive) rfl (by exact congrArg some hvendor)
    (by exact congrArg some hdevice)) ?_
  rintro t rfl
  let g := s.regs.detected (some s.cfg.vendorId) (some s.cfg.deviceId) s.cfg.idReads
  refine .here ⟨l, { g with PARTF := some (.known P) }, hlen, hwrites, rfl, rfl, draws, ?_⟩
  rw [← State.setMode_self hread]
  rfl

/-- From a part's name to FLASH, where the key answers yes (R226, R227). -/
theorem run_prompt {P : Part} {o : Bool} {key : Byte} {keys : List Byte} (hlive : s.live)
    (he : s.epc = ⟨.run, 5⟩ :: rest) (hP : s.regs.PARTF = some (.known P)) (ho : s.regs.OVL = some o)
    (hkeys : s.keys = key :: keys) (hyes : isYes key = true) :
    EngLeads s (· = { s with
      msg := s.msg ++ (if o then [.overlapWarning] else []) ++ [.summary (.known P) s.D s.L, .prompt]
      keys := keys
      regs := { s.regs with ANS := some key }
      epc := ⟨.flash, 0⟩ :: ⟨.run, 18⟩ :: rest }) := by
  obtain ⟨hfaults, hexit, hhalted⟩ := hlive
  cases o <;> [refine ⟨7, _, ?_, rfl⟩; refine ⟨8, _, ?_, rfl⟩] <;>
    simp [engRun, engStep, State.ended, exec, execRun, State.stmt, State.goto, State.setRegs, State.call, State.say,
      State.key, State.keyTaken, State.L, State.NBLK, *]

/-- Where FLASH counts no block RUN ends with EXIT = 0 (R226, R228). -/
theorem run_upToDate (hlive : s.live) (he : s.epc = ⟨.run, 18⟩ :: rest) (hCNT : s.regs.CNT = some 0) :
    engRun 3 s = .next { s with msg := s.msg ++ [.upToDate], exit := some .zero, epc := ⟨.run, 20⟩ :: rest } := by
  obtain ⟨hfaults, hexit, hhalted⟩ := hlive
  simp [engRun, engStep, State.ended, exec, execRun, State.stmt, State.goto, State.say, State.stop, *]

/-- The end of a whole run from `s` that found nothing to program (R228): DETECT's four writes, and the reads of
OVERLAP, DETECT and FLASH. -/
def UpToDateFrom (s t : State) : Prop :=
  RunEnd.upToDate.holds t ∧ t.dev = s.dev ∧ t.ram = s.ram ∧ t.faults = [] ∧ t.IF = true ∧
    ∃ l, t.hist = s.hist ++ l ∧ (l.filter fun e => e.kind = .W).length = 4 ∧
      l.length = 2 * ((List.range 16).filter fun k =>
          !inDestination s.D s.L ((plannedSegment s.D s.L).toNat + 0x80 * k)).length +
        (s.cfg.idReads + 5) + s.L

/-- Settles O53: the calls of RUN's procedures one after the other. -/
theorem matchingImageRunExitsZero : Obligations.MatchingImageRunExitsZero := by
  intro s P S' key keys he hlive herr hc hread hkeys hyes hstale hvendor hdevice hS hshown hwindow hsector heq
  have hplaces (k : Nat) (hk : k < 16) : s.readable ((S'.toNat + 0x80 * k) * 16) ∧
      s.readable ((S'.toNat + 0x80 * k) * 16 + 1) :=
    let ⟨⟨_, h0⟩, _, h1⟩ := hshown k hk
    ⟨State.readable_of_shows h0, State.readable_of_shows h1⟩
  obtain rfl : plannedSegment s.D s.L = S' := hS.symm
  suffices hrun : EngLeads s (UpToDateFrom s) by
    obtain ⟨m, t, hm, hend, hdev, hram, hf, hIF, l, hhist, hwrites, hlen⟩ := hrun
    exact ⟨m, t, l, hm, hend, hdev, hram, hf, hIF, hhist, hwrites, hlen⟩
  refine .after (run_cal hlive he hc) (.bind (run_plan (by exact hlive) rfl) ?_)
  rintro _ rfl
  refine .bind (run_overlap (by exact hlive) rfl hread rfl hplaces) ?_
  rintro _ ⟨l₁, g₁, o, hl₁, hlen₁, hS₁, hOVL₁, draws₁, rfl⟩
  refine .bind (run_identify P (by exact hlive) rfl hread hS₁ (by exact hwindow) (by exact hsector) hstale
    (by simpa [State.onward, Config.vendorId, hc] using hvendor)
    (by simpa [State.onward, Config.deviceId, hc] using hdevice)) ?_
  rintro _ ⟨l₂, g₂, hlen₂, hwrites₂, hP, hOVL₂, draws₂, rfl⟩
  refine .bind (run_prompt (by exact hlive) rfl hP (hOVL₂.trans hOVL₁) hkeys hyes) ?_
  rintro _ rfl
  refine .bind (flash_matches (by exact hlive) rfl hread (by exact heq)) ?_
  rintro _ ⟨l₃, g₃, hl₃, hlen₃, hCNT, draws₃, rfl⟩
  refine .after (run_upToDate (by exact hlive) rfl hCNT) (.here ⟨⟨hlive.1, rfl, hlive.2.2, herr, ?_⟩, rfl, rfl, hlive.1,
    rfl, l₁ ++ l₂ ++ l₃, ?_, ?_, ?_⟩)
  · simp
  · simp [State.onward]
  · simp [filter_writes_of_readsOnly, hl₁, hl₃, hwrites₂]
  · rw [List.length_append, List.length_append, hlen₁, hlen₂, hlen₃]
    rfl

end Machine

end Sys2Proof
end

section
/-! PROOFS. Image conditioning (R211, R212): the reading loop keeps the file's bytes in order and fills up with 0x00,
the padding loop appends zero blocks. -/

namespace Sys2Proof

namespace Machine

variable {bytes file : List Byte} {img : List (List Byte)} {K : Option Nat} {fuel : Nat}

/-! ## The limit (R212) -/

theorem loadLimit_le (hK : legalK K = true) : loadLimit K ≤ MAX_BLOCKS * SECTOR := by
  cases K with
  | none => exact le_rfl
  | some K =>
    simp only [legalK, Bool.and_eq_true, decide_eq_true_eq] at hK
    simp only [loadLimit, MAX_BLOCKS, SECTOR]
    omega

/-! ## Blocks of the file's bytes -/

/-- The blocks are whole, and joined they are the bytes and then only 0x00 (R211, R212). -/
structure ZeroPadded (bytes : List Byte) (img : List (List Byte)) : Prop where
  whole : ∀ blk ∈ img, blk.length = SECTOR
  joined : ∃ n, img.flatten = bytes ++ List.replicate n 0x00

theorem padBlock_length (h : bytes.length ≤ SECTOR) : (padBlock bytes).length = SECTOR := by
  rw [padBlock, List.length_append, List.length_replicate]
  omega

theorem padBlock_of_length_eq (h : bytes.length = SECTOR) : padBlock bytes = bytes := by
  simp [padBlock, h]

@[simp] theorem loadBlocks_nil : loadBlocks fuel [] = [] := by cases fuel <;> rfl

theorem loadBlocks_succ (h : bytes ≠ []) :
    loadBlocks (fuel + 1) bytes = padBlock (bytes.take SECTOR) :: loadBlocks fuel (bytes.drop SECTOR) := by
  cases bytes with
  | nil => exact absurd rfl h
  | cons b bytes => rfl

/-- A whole block in front of blocks of the other bytes. -/
theorem ZeroPadded.cons (h : ZeroPadded (bytes.drop SECTOR) img) (hfull : SECTOR ≤ bytes.length) :
    ZeroPadded bytes (padBlock (bytes.take SECTOR) :: img) := by
  have hlen : (bytes.take SECTOR).length = SECTOR := List.length_take_of_le hfull
  obtain ⟨hwhole, n, hn⟩ := h
  rw [padBlock_of_length_eq hlen]
  refine ⟨List.forall_mem_cons.mpr ⟨hlen, hwhole⟩, n, ?_⟩
  rw [List.flatten_cons, hn, ← List.append_assoc, List.take_append_drop]

/-- The last block holds all the bytes that are left. -/
theorem ZeroPadded.last (h : bytes.length ≤ SECTOR) : ZeroPadded bytes [padBlock bytes] :=
  ⟨by simpa using padBlock_length h, SECTOR - bytes.length, by simp [padBlock]⟩

theorem length_drop_sector_le (h : bytes.length ≤ (fuel + 1) * SECTOR) :
    (bytes.drop SECTOR).length ≤ fuel * SECTOR := by
  rw [Nat.succ_mul] at h
  rw [List.length_drop]
  omega

/-- The reading loop, by induction on its fuel (R212). -/
theorem loadBlocks_zeroPadded (h : bytes.length ≤ fuel * SECTOR) : ZeroPadded bytes (loadBlocks fuel bytes) := by
  induction fuel generalizing bytes with
  | zero =>
    obtain rfl : bytes = [] := List.length_eq_zero_iff.mp (by omega)
    exact ⟨by simp, 0, rfl⟩
  | succ fuel ih =>
    by_cases hnil : bytes = []
    · subst hnil
      exact ⟨by simp, 0, by simp⟩
    rw [loadBlocks_succ hnil]
    by_cases hlast : bytes.length ≤ SECTOR
    · rw [List.take_of_length_le hlast, List.drop_of_length_le hlast, loadBlocks_nil]
      exact .last hlast
    · exact (ih (length_drop_sector_le h)).cons (by omega)

/-- As many blocks as the bytes need (R211). -/
theorem loadBlocks_length (h : bytes.length ≤ fuel * SECTOR) :
    (loadBlocks fuel bytes).length = (bytes.length + 4095) / 4096 := by
  induction fuel generalizing bytes with
  | zero =>
    obtain rfl : bytes = [] := List.length_eq_zero_iff.mp (by omega)
    rfl
  | succ fuel ih =>
    by_cases hnil : bytes = []
    · subst hnil
      simp
    have hpos := List.length_pos_of_ne_nil hnil
    rw [loadBlocks_succ hnil, List.length_cons, ih (length_drop_sector_le h), List.length_drop]
    simp only [SECTOR]
    omega

/-! ## Zero blocks behind them -/

theorem ZeroPadded.padBlocks (h : ZeroPadded bytes img) (K : Option Nat) : ZeroPadded bytes (padBlocks K img) := by
  cases K with
  | none => exact h
  | some K =>
    obtain ⟨hwhole, n, hn⟩ := h
    refine ⟨List.forall_mem_append.mpr ⟨hwhole, fun blk hblk => ?_⟩, ?_⟩
    · rw [List.eq_of_mem_replicate hblk, List.length_replicate]
    · rw [Machine.padBlocks, List.flatten_append, hn, List.flatten_replicate_replicate, List.append_assoc,
        List.replicate_append_replicate]
      exact ⟨_, rfl⟩

/-- The number of blocks: as many as the bytes need, or with K as many as K asks for (R211 I4, R212). -/
theorem padBlocks_length (h : bytes.length ≤ loadLimit K) (himg : img.length = (bytes.length + 4095) / 4096) :
    (padBlocks K img).length = (K.elim bytes.length (· * 1024) + 4095) / 4096 := by
  cases K with
  | none => exact himg
  | some K =>
    simp only [loadLimit] at h
    simp only [padBlocks, List.length_append, List.length_replicate, himg, SECTOR, Option.elim]
    omega

/-! ## LOAD -/

/-- The bytes of a file that LOAD reads (R212). -/
def loadBytes (file : List Byte) (K : Option Nat) : List Byte := file.take (loadLimit K)

/-- The blocks that LOAD makes of them (R212). -/
def loadImage (file : List Byte) (K : Option Nat) : List (List Byte) :=
  padBlocks K (loadBlocks MAX_BLOCKS (loadBytes file K))

theorem load_eq (file : List Byte) (K : Option Nat) : load file K =
    if 0 < (loadBytes file K).length ∧ (loadBytes file K).length % 2048 = 0 ∧ (loadImage file K).length ≤ MAX_BLOCKS
    then .ok ⟨loadImage file K, (loadBytes file K).length,
      if (loadBytes file K).length % SECTOR = 0 then [] else [.padded]⟩
    else .error .imageRejected := rfl

theorem loadBytes_length_le (file : List Byte) (K : Option Nat) : (loadBytes file K).length ≤ loadLimit K :=
  List.length_take_le ..

theorem loadImage_zeroPadded (file : List Byte) (hK : legalK K = true) :
    ZeroPadded (loadBytes file K) (loadImage file K) :=
  (loadBlocks_zeroPadded ((loadBytes_length_le file K).trans (loadLimit_le hK))).padBlocks K

theorem loadImage_length (file : List Byte) (hK : legalK K = true) :
    (loadImage file K).length = (K.elim (loadBytes file K).length (· * 1024) + 4095) / 4096 :=
  have hle := loadBytes_length_le file K
  padBlocks_length hle (loadBlocks_length (hle.trans (loadLimit_le hK)))

/-- The cap on the number of blocks never rejects a file. -/
theorem loadImage_length_le (file : List Byte) (hK : legalK K = true) : (loadImage file K).length ≤ MAX_BLOCKS := by
  have hle := loadBytes_length_le file K
  have hlimit := loadLimit_le hK
  rw [loadImage_length file hK]
  cases K <;> simp only [loadLimit, Option.elim, MAX_BLOCKS, SECTOR] at * <;> omega

/-- LOAD accepts a file exactly if its bytes fill half blocks, and at least one (R212). -/
theorem load_of_legalK (file : List Byte) (hK : legalK K = true) : load file K =
    if 0 < (loadBytes file K).length ∧ (loadBytes file K).length % 2048 = 0 then
      .ok ⟨loadImage file K, (loadBytes file K).length,
        if (loadBytes file K).length % SECTOR = 0 then [] else [.padded]⟩
    else .error .imageRejected := by
  simp only [load_eq, loadImage_length_le file hK, and_true]

/-- What LOAD makes of an accepted file meets I1 to I4 (R211). -/
theorem loadImage_imageOk (hK : legalK K = true) (hpos : 0 < (loadBytes file K).length)
    (hmod : (loadBytes file K).length % 2048 = 0) : imageOk (loadImage file K) (loadBytes file K).length K := by
  obtain ⟨hwhole, n, hjoined⟩ := loadImage_zeroPadded file hK
  have hlen := loadImage_length file hK
  have hle := loadBytes_length_le file K
  refine ⟨⟨?_, loadImage_length_le file hK, hwhole⟩, ⟨hpos, hmod⟩, fun v hv => ?_, ?_⟩
  · cases K <;> simp only [loadLimit, Option.elim] at * <;> omega
  · rw [hjoined, List.drop_left] at hv
    exact List.eq_of_mem_replicate hv
  · cases K with
    | none => exact hlen
    | some K => exact ⟨hle, hlen⟩

/-- The image begins with the file's bytes. -/
theorem loadImage_take (file : List Byte) (hK : legalK K = true) :
    (loadImage file K).flatten.take (loadBytes file K).length = file.take (loadBytes file K).length := by
  obtain ⟨-, n, hjoined⟩ := loadImage_zeroPadded file hK
  rw [hjoined, List.take_left, loadBytes, List.length_take]
  simp

/-- Settles O10: the blocks that LOAD makes, and the two tests that can reject the file. -/
theorem loadMeetsImageContract : Obligations.LoadMeetsImageContract := by
  intro file K hK
  rw [load_of_legalK file hK]
  change _ ∧ (_ ↔ (loadBytes file K).length = 0 ∨ (loadBytes file K).length % 2048 ≠ 0)
  split
  next haccept =>
    obtain ⟨hpos, hmod⟩ := haccept
    refine ⟨fun l hl => ?_, by simp [hpos.ne', hmod]⟩
    cases hl
    exact ⟨loadImage_imageOk hK hpos hmod, by simp, loadImage_take file hK⟩
  next hreject => exact ⟨nofun, iff_of_true rfl (by omega)⟩

end Machine

end Sys2Proof
end

section
/-! PROOFS. PLAN (R213, R214): its run from the first statement to the return, and the segment that it leaves. -/

namespace Sys2Proof

namespace Machine

variable {s : State} {D : Operand Seg} {L : Operand Nat} {D' : Seg} {L' dest seq : Nat} {rest : List Frame}

/-! ## PLAN's arithmetic -/

theorem planRoundsUp_iff {dest seq L : Nat} :
    planRoundsUp dest seq L = true ↔ seq < dest ∧ seq + 0x10000 ≤ dest + L := by
  simp [planRoundsUp]

/-- Below 1 MiB the segment of an address has 16 bits (R213). -/
theorem planSegment_toNat (h : seq < 0x100000) : (planSegment seq).toNat = seq / 16 := by
  rw [planSegment, if_pos h, BitVec.toNat_ofNat]
  omega

/-- PLAN's `seq` after its rounding (R213). -/
def plannedSeq (dest L : Nat) : Nat :=
  if planRoundsUp dest (planFloor dest) L then planFloor dest + WINDOW else planFloor dest

theorem plannedSeq_eq (dest L : Nat) : plannedSeq dest L =
    if dest - dest % 0x8000 < dest ∧ dest - dest % 0x8000 + 0x10000 ≤ dest + L then dest - dest % 0x8000 + 0x8000
    else dest - dest % 0x8000 := by
  simp only [plannedSeq, planRoundsUp_iff, planFloor, WINDOW]

/-! ## The statements -/

/-- PLAN's first two statements: the destination's address and its floor (R213). -/
theorem plan_floor (he : s.epc = ⟨.plan D L, 0⟩ :: rest) (hD : operand? D (some s.D) = some D') :
    execN (.plan D L) 2 s = .next { s with
      regs := { s.regs with dest := some (physical D' 0), seq := some (planFloor (physical D' 0)) }
      epc := ⟨.plan D L, 2⟩ :: rest } := by
  simp [execN, exec, execPlan, State.stmt, State.goto, State.setRegs, he, hD]

/-- PLAN's rounding, in one statement or two (R213). -/
theorem plan_round (he : s.epc = ⟨.plan D L, 2⟩ :: rest) (hL : operand? L (some s.L) = some L')
    (hdest : s.regs.dest = some dest) (hseq : s.regs.seq = some (planFloor dest)) :
    Leads (.plan D L) s (· = { s with
      regs := { s.regs with seq := some (plannedSeq dest L') }, epc := ⟨.plan D L, 4⟩ :: rest }) := by
  have htest : exec (.plan D L) s =
      .next (s.goto (if planRoundsUp dest (planFloor dest) L' then 3 else 4)) := by
    simp [exec, execPlan, State.stmt_of_epc he, hseq, hdest, hL]
  refine .step htest ?_
  unfold plannedSeq
  split
  · refine ⟨1, _, ?_, rfl⟩
    simp [execN, exec, execPlan, State.stmt, State.goto, State.setRegs, he, hseq]
  · refine .here ?_
    rw [← hseq]
    simp [State.goto, he]

/-- PLAN's last statement, and the return (R213). -/
theorem plan_return (he : s.epc = ⟨.plan D L, 4⟩ :: rest) (hseq : s.regs.seq = some seq) :
    execN (.plan D L) 1 s = .next { s with regs := { s.regs with S := some (planSegment seq) }, epc := rest } := by
  simp [execN, exec, execPlan, State.stmt, State.setRegs, State.ret, he, hseq]

theorem plan_leads (he : s.epc = ⟨.plan D L, 0⟩ :: rest) (hD : operand? D (some s.D) = some D')
    (hL : operand? L (some s.L) = some L') :
    Leads (.plan D L) s (· = { s with
      regs := { s.regs with
        dest := some (physical D' 0)
        seq := some (plannedSeq (physical D' 0) L')
        S := some (planSegment (plannedSeq (physical D' 0) L')) }
      epc := rest }) := by
  refine .bind ⟨2, _, plan_floor he hD, rfl⟩ ?_
  rintro _ rfl
  refine .bind (plan_round (dest := physical D' 0) rfl (by exact hL) rfl rfl) ?_
  rintro _ rfl
  exact ⟨1, _, plan_return (seq := plannedSeq (physical D' 0) L') rfl rfl, rfl⟩

/-- Settles O45: PLAN's run, its arithmetic written out. -/
theorem planComputesWindow : Obligations.PlanComputesWindow := by
  intro s D L D' L' rest he hD hL
  obtain ⟨m, _, hm, rfl⟩ := plan_leads he hD hL
  rw [plannedSeq_eq] at hm
  exact ⟨m, _, hm, planSegment_toNat⟩

/-- Settles O46: a legal destination is a multiple of 4 KiB at most at 0xF8000, so that both addresses lie below
1 MiB. -/
theorem planIsAligned : Obligations.PlanIsAligned := by
  intro D L hD
  simp only [legalD, Bool.and_eq_true, decide_eq_true_eq, beq_iff_eq] at hD
  obtain ⟨⟨-, hmax⟩, haligned⟩ := hD
  dsimp only
  simp only [planRoundsUp_iff, planFloor, physical, WINDOW, SEG_MAX] at hmax ⊢
  split
  next hround =>
    obtain ⟨habove, hinside⟩ := hround
    rw [planSegment_toNat (by omega)]
    exact ⟨by omega, .inr (by omega)⟩
  next =>
    rw [planSegment_toNat (by omega)]
    exact ⟨by omega, .inl (by omega)⟩

end Machine

end Sys2Proof
end

section
/-! PROOFS. FLASH of an image that memory already holds (R218, R219, R220, R221), in whatever mode the device is: a
read of a place that shows a byte is one entry of HIST and nothing else, so that the whole state is known at each
loop's test. -/

namespace Sys2Proof

namespace Machine

variable {s t : State} {rest : List Frame} {k n p c d base : Nat} {v : Byte} {x : Nat → Byte}
  {g : Regs}

/-! ## Reads of places that show a byte -/

/-- A place that shows a byte answers with it, and the read leaves only its entry of HIST (R43, R70, R123). -/
theorem State.busRead_shown {ag : Agent} (h : s.shows p v) :
    s.busRead ag p = .ok v (s.log ⟨ag, .R, BitVec.ofNat 20 p, v⟩) := by
  obtain ⟨q, hq, h⟩ := h
  obtain ⟨-, rfl⟩ := toPhys?_some hq
  cases ha : s.cfg.devAddr? (BitVec.ofNat 20 p) with
  | some a =>
    simp only [ha] at h
    obtain ⟨hread, rfl⟩ := h
    rw [State.busRead_device hq ha, State.devRead_read hread]
  | none =>
    simp only [ha] at h
    rw [State.busRead_other hq ha]
    obtain ⟨htick, rfl⟩ | ⟨htick, htest, rfl⟩ := h
    · rw [htick, State.otherByte_tickAddr]
    · rw [State.otherByte_test htick htest]

theorem readsFrom_add : readsFrom base (c + d) x =
    readsFrom base c x ++ readsFrom (base + c) d fun j => x (c + j) := by
  simp [readsFrom, List.range_add, Nat.add_assoc]

/-- Byte `j` of the image (R39). -/
def State.imageByte (s : State) (j : Nat) : Byte := (s.imgByte? (j / SECTOR) (j % SECTOR)).getD 0

/-- The places of a block that memory holds show the image's bytes (R217, R218). -/
theorem State.blockEqual.byte (h : s.blockEqual k) (hb : c < SECTOR) :
    s.shows (s.pbase k + c) (s.imageByte (k * SECTOR + c)) ∧
      s.imgByte? k c = some (s.imageByte (k * SECTOR + c)) := by
  obtain ⟨v, hv, hw⟩ := h c hb
  have hdiv : (k * SECTOR + c) / SECTOR = k := by simp only [SECTOR] at hb ⊢; omega
  have hmod : (k * SECTOR + c) % SECTOR = c := by simp only [SECTOR] at hb ⊢; omega
  rw [State.imageByte, hdiv, hmod, hw]
  exact ⟨hv, rfl⟩

theorem State.pbase_eq (s : State) (k : Nat) : s.pbase k = s.pbase 0 + k * SECTOR := by
  simp [State.pbase, physical]

/-! ## COMPARE_BLOCK (R218) -/

/-- COMPARE_BLOCK, called at `s`, at its loop's test with `c` bytes of the block read and found equal. -/
def State.comparing (s : State) (k c : Nat) (rest : List Frame) : State :=
  { s with
    hist := s.hist ++ readsFrom (s.pbase k) c fun j => s.imageByte (k * SECTOR + j)
    regs := { s.regs with b := some c }
    epc := ⟨.compareBlock k, 1⟩ :: rest }

theorem compareBlock_enter (he : s.epc = ⟨.compareBlock k, 0⟩ :: rest) :
    OwnRun (.compareBlock k) 1 s (s.comparing k 0 rest) := by
  refine .cons he ?_ (.nil _) id
  simp [exec, execCompareBlock, State.stmt, State.goto, State.setRegs, State.comparing, readsFrom, he]

/-- The comparison of a byte that memory holds (R218). -/
theorem exec_compareBlock_equal (he : s.epc = ⟨.compareBlock k, 2⟩ :: rest) (hb : s.regs.b = some c)
    (himg : s.imgByte? k c = some v) (hshown : s.shows (s.pbase k + c) v) : exec (.compareBlock k) s =
      .next ((s.log ⟨.eng, .R, BitVec.ofNat 20 (s.pbase k + c), v⟩).goto 3) := by
  simp [exec, execCompareBlock, State.stmt_of_epc he, hb, needImage, himg, engRead, State.busRead_shown hshown]

/-- One byte: the loop's test, the comparison and the count. -/
theorem compareBlock_byte (heq : s.blockEqual k) (hc : c < SECTOR) :
    OwnRun (.compareBlock k) 3 (s.comparing k c rest) (s.comparing k (c + 1) rest) := by
  obtain ⟨hshown, himg⟩ := heq.byte hc
  refine .cons rfl (t := (s.comparing k c rest).goto 2) ?_ (.cons rfl
    (exec_compareBlock_equal rfl rfl (by exact himg) (by exact hshown)) (.cons rfl ?_ (.nil _) id) id) id
  · simp [exec, execCompareBlock, State.stmt, State.goto, State.comparing, hc]
  · simp [exec, execCompareBlock, State.stmt, State.goto, State.setRegs, State.log, State.comparing, State.pbase,
      readsFrom, List.range_succ]

/-- All the block's bytes, by induction on their number. -/
theorem compareBlock_bytes (he : s.epc = ⟨.compareBlock k, 0⟩ :: rest) (heq : s.blockEqual k) (hc : c ≤ SECTOR) :
    OwnLeads (.compareBlock k) s (· = s.comparing k c rest) := by
  induction c with
  | zero => exact ⟨1, _, compareBlock_enter he, rfl⟩
  | succ c ih =>
    refine (ih (by omega)).bind ?_
    rintro _ rfl
    exact ⟨3, _, compareBlock_byte heq (by omega), rfl⟩

/-- COMPARE_BLOCK's return with TRUE (R218). -/
theorem exec_compareBlock_true (he : s.epc = ⟨.compareBlock k, 5⟩ :: rest) : exec (.compareBlock k) s =
    .next { s with regs := { s.regs with equal := some true }, epc := rest } := by
  simp [exec, execCompareBlock, State.stmt, State.setRegs, State.ret, he]

/-- COMPARE_BLOCK of a block that memory holds reads each byte once, in order, and returns TRUE (R218). -/
theorem compareBlock_holds (he : s.epc = ⟨.compareBlock k, 0⟩ :: rest) (heq : s.blockEqual k) :
    OwnLeads (.compareBlock k) s (· = { s with
      hist := s.hist ++ readsFrom (s.pbase k) SECTOR fun j => s.imageByte (k * SECTOR + j)
      regs := { s.regs with b := some SECTOR, equal := some true }
      epc := rest }) := by
  refine (compareBlock_bytes he heq le_rfl).bind ?_
  rintro _ rfl
  refine ⟨2, _, .cons rfl (t := (s.comparing k SECTOR rest).goto 5) ?_
    (.cons rfl (exec_compareBlock_true rfl) (.nil _) id) id, rfl⟩
  simp [exec, execCompareBlock, State.stmt, State.goto, State.comparing]

/-! ## FLASH (R219, R220, R221) -/

/-- FLASH, entered at `s`, at its block loop's test with registers `g`, `n` blocks read and passed over. -/
def State.flashing (s : State) (n : Nat) (g : Regs) (rest : List Frame) : State :=
  s.onward false s.draws (readsFrom (s.pbase 0) (n * SECTOR) s.imageByte) g (⟨.flash, 3⟩ :: rest)

/-- One more block's reads in order. -/
theorem State.flashing_succ (s : State) (g g' : Regs) : s.flashing (n + 1) g' rest = { s.flashing n g rest with
    hist := (s.flashing n g rest).hist ++ readsFrom (s.pbase n) SECTOR fun j => s.imageByte (n * SECTOR + j)
    regs := g' } := by
  simp only [State.flashing, State.onward, Nat.succ_mul, readsFrom_add, ← s.pbase_eq, List.append_assoc]

/-- FLASH has come from `s` to its block loop's test with `n` blocks read and passed over, and counted none. -/
def Passes (s : State) (rest : List Frame) (n : Nat) (t : State) : Prop :=
  ∃ g, g.CNT = some 0 ∧ g.i = some n ∧ t = s.flashing n g rest

theorem exec_flash_first (he : s.epc = ⟨.flash, 0⟩ :: rest) : exec .flash s =
    .next { s with regs := { s.regs with CNT := some 0 }, epc := ⟨.flash, 1⟩ :: rest } := by
  simp [exec, execFlash, State.stmt, State.goto, State.setRegs, he]

theorem flash_passes_zero (hlive : s.live) (he : s.epc = ⟨.flash, 0⟩ :: rest) : EngLeads s (Passes s rest 0) :=
  .after (flash_enter hlive he) <| 
    .here ⟨{ s.regs with CNT := some 0, i := some 0 }, rfl, rfl, by simp [State.flashing, State.onward, readsFrom]⟩

/-- One block: the test, the comparison, and the next block. -/
theorem flash_passes_succ (hlive : s.live) (hn : n < s.NBLK) (heq : s.blockEqual n) (h : Passes s rest n t) :
    EngLeads t (Passes s rest (n + 1)) := by
  obtain ⟨g, hCNT, hi, rfl⟩ := h
  refine .after (flash_compare (by exact hlive) rfl hi (by exact hn)) (.bind
    ((compareBlock_holds rfl (by exact heq)).engLeads hlive) ?_)
  rintro _ rfl
  refine .after (flash_passOver (by exact hlive) rfl (by exact hi) rfl) 
    (.here ⟨{ g with b := some SECTOR, equal := some true, i := some (n + 1) }, hCNT, rfl, (s.flashing_succ g _).symm⟩)

theorem flash_passes (hlive : s.live) (he : s.epc = ⟨.flash, 0⟩ :: rest)
    (heq : ∀ i, i < s.NBLK → s.blockEqual i) (hn : n ≤ s.NBLK) : EngLeads s (Passes s rest n) := by
  induction n with
  | zero => exact flash_passes_zero hlive he
  | succ n ih => exact (ih (by omega)).bind fun t => flash_passes_succ hlive (by omega) (heq n (by omega))

/-- Settles O49: FLASH's blocks one after the other, each passed over, and the return. -/
theorem flashIsIdempotent : Obligations.FlashIsIdempotent := by
  intro s rest he hlive heq
  refine ⟨exec_flash_first he, ?_⟩
  have hleaves : EngLeads s fun t => ∃ g, g.CNT = some 0 ∧
      t = s.onward true s.draws (readsFrom (s.pbase 0) s.L s.imageByte) g rest := by
    refine (flash_passes hlive he heq le_rfl).bind ?_
    rintro _ ⟨g, hCNT, hi, rfl⟩
    exact .after (flash_leave (by exact hlive) rfl hi le_rfl) (.here ⟨g, hCNT, rfl⟩)
  obtain ⟨m, _, hm, g, hCNT, rfl⟩ := hleaves
  refine ⟨m, _, s.imageByte, hm, rfl, hCNT, rfl, rfl, rfl, fun j hj => ?_, hlive.1, rfl⟩
  obtain ⟨v, -, hv⟩ := State.forall_blockEqual_iff.mp heq j hj
  exact hv.trans (congrArg some (by rw [State.imageByte, hv]; rfl))

end Machine

end Sys2Proof
end

section
/-! PROOFS. RUN's statements between its calls (R225, R226, R227), and its ends (R228). -/

namespace Sys2Proof

namespace Machine

variable {s : State} {rest : List Frame} {k : Nat} {j : Instr} {x : IdResult} {S : Seg} {a : Byte} {o : Bool}
  {c : Int}

/-! ## The calls -/

/-- The procedure that RUN calls at a statement and goes on behind (R225, R226). -/
def runCall : Nat → Option Instr
  | 0 => some (.cal .reg)
  | 1 => some (.plan .reg .reg)
  | 2 => some (.overlap .reg .reg .reg)
  | 3 => some (.detect .reg .reg)
  | 4 => some (.idDecode .reg .reg)
  | 17 => some .flash
  | 24 => some .verify
  | _ => none

theorem exec_run_call (he : s.epc = ⟨.run, k⟩ :: rest) (hj : runCall k = some j) :
    exec .run s = .next { s with epc := ⟨j, 0⟩ :: ⟨.run, k + 1⟩ :: rest } := by
  have hcall : exec .run s = .next (s.call j (k + 1)) := by
    match k, hj with
    | 0, rfl | 1, rfl | 2, rfl | 3, rfl | 4, rfl | 17, rfl | 24, rfl =>
      simp only [exec, execRun, State.stmt_of_epc he]
  rw [hcall, State.call, State.goto_epc_of he]

/-! ## The messages and the prompt -/

/-- From a recognised part to the key: the warning, if there is one, the summary and the prompt (R226). -/
theorem run_messages (hlive : s.live) (he : s.epc = ⟨.run, 5⟩ :: rest) (hx : s.regs.PARTF = some x) (hne : x ≠ .none)
    (ho : s.regs.OVL = some o) : EngLeads s (· = { s with
      msg := s.msg ++ (if o then [.overlapWarning] else []) ++ [.summary x s.D s.L, .prompt]
      epc := ⟨.run, 13⟩ :: rest }) := by
  obtain ⟨hfaults, hexit, hhalted⟩ := hlive
  cases o <;> [refine ⟨4, _, ?_, rfl⟩; refine ⟨5, _, ?_, rfl⟩] <;>
    simp [engRun, engStep, State.ended, exec, execRun, State.stmt, State.goto, State.say, State.L, State.NBLK, *]

/-- The prompt and the key (R226, R227). -/
theorem run_ask (hlive : s.live) (he : s.epc = ⟨.run, 12⟩ :: rest) : engRun 2 s = .next { s.keyTaken with
    msg := s.msg ++ [.prompt], regs := { s.regs with ANS := some s.key }, epc := ⟨.run, 14⟩ :: rest } := by
  obtain ⟨hfaults, hexit, hhalted⟩ := hlive
  cases hkeys : s.keys <;>
    simp [engRun, engStep, State.ended, exec, execRun, State.stmt, State.goto, State.setRegs, State.say, State.key,
      State.keyTaken, State.fresh, State.drawn, *]

theorem run_no (hlive : s.live) (he : s.epc = ⟨.run, 14⟩ :: rest) (ha : s.regs.ANS = some a) (hno : isYes a = false) :
    engRun 3 s = .next { s with err := some .userAborted, exit := some .one, epc := ⟨.run, 16⟩ :: rest } := by
  obtain ⟨hfaults, hexit, hhalted⟩ := hlive
  simp [engRun, engStep, State.ended, exec, execRun, State.stmt, State.goto, State.setErr, State.stop, *]

theorem run_yes (hlive : s.live) (he : s.epc = ⟨.run, 14⟩ :: rest) (ha : s.regs.ANS = some a) (hyes : isYes a = true) :
    engRun 2 s = .next { s with epc := ⟨.flash, 0⟩ :: ⟨.run, 18⟩ :: rest } := by
  have htest : exec .run s = .next { s with epc := ⟨.run, 17⟩ :: rest } := by
    simp [exec, execRun, State.stmt, State.goto, he, ha, hyes]
  exact (engRun_succ hlive he htest 1).trans (engRun_succ (by exact hlive) rfl (exec_run_call rfl rfl) 0)

/-! ## The ends (R228) -/

theorem run_unrecognised (hlive : s.live) (he : s.epc = ⟨.run, 5⟩ :: rest) (hx : s.regs.PARTF = some .none)
    (hS : s.regs.S = some S) : engRun 4 s = .next { s with
      msg := s.msg ++ [.unrecognized S s.D], err := some .deviceNotRecognized, exit := some .one
      epc := ⟨.run, 8⟩ :: rest } := by
  obtain ⟨hfaults, hexit, hhalted⟩ := hlive
  simp [engRun, engStep, State.ended, exec, execRun, State.stmt, State.goto, State.say, State.setErr, State.stop, *]

/-- Where FLASH counts a block RUN calls VERIFY (R226). -/
theorem run_verify (hlive : s.live) (he : s.epc = ⟨.run, 18⟩ :: rest) (hc : s.regs.CNT = some c) (hpos : 0 < c) :
    engRun 3 s = .next { s with epc := ⟨.verify, 0⟩ :: ⟨.run, 25⟩ :: rest } := by
  obtain ⟨hfaults, hexit, hhalted⟩ := hlive
  have hzero : c ≠ 0 := by omega
  have hminus : c ≠ -1 := by omega
  simp [engRun, engStep, State.ended, exec, execRun, State.stmt, State.goto, State.call, *]

theorem run_timeout (hlive : s.live) (he : s.epc = ⟨.run, 18⟩ :: rest) (hc : s.regs.CNT = some (-1)) :
    engRun 5 s = .next { s with
      msg := s.msg ++ [.corrupt], halted := true, epc := ⟨.halt, 0⟩ :: ⟨.run, 23⟩ :: rest } := by
  obtain ⟨hfaults, hexit, hhalted⟩ := hlive
  simp [engRun, engStep, State.ended, exec, execRun, execHalt, State.stmt, State.goto, State.say, State.call, *]

theorem run_complete (hlive : s.live) (he : s.epc = ⟨.run, 25⟩ :: rest) (hok : s.regs.VOK = some true) :
    engRun 4 s = .next { s with
      msg := s.msg ++ [.complete], halted := true, epc := ⟨.halt, 0⟩ :: ⟨.run, 29⟩ :: rest } := by
  obtain ⟨hfaults, hexit, hhalted⟩ := hlive
  simp [engRun, engStep, State.ended, exec, execRun, execHalt, State.stmt, State.goto, State.say, State.call, *]

theorem run_verifyFailed (hlive : s.live) (he : s.epc = ⟨.run, 25⟩ :: rest) (hok : s.regs.VOK = some false) :
    engRun 5 s = .next { s with
      msg := s.msg ++ [.verifyFailed], err := some .verifyFailed, halted := true
      epc := ⟨.halt, 0⟩ :: ⟨.run, 29⟩ :: rest } := by
  obtain ⟨hfaults, hexit, hhalted⟩ := hlive
  simp [engRun, engStep, State.ended, exec, execRun, execHalt, State.stmt, State.goto, State.say, State.setErr,
    State.call, *]

theorem State.keyTaken_live (h : s.live) : s.keyTaken.live :=
  ⟨s.keyTaken_faults.trans h.1, s.keyTaken_sameEngine.exit.trans h.2.1, s.keyTaken_sameEngine.halted.trans h.2.2⟩

/-- Settles O52: RUN's calls, and its runs to the key, to FLASH, to VERIFY and to each end. -/
theorem runEndsAsTabled : Obligations.RunEndsAsTabled := by
  intro s k rest he hlive
  obtain ⟨hfaults, hexit, hhalted⟩ := id hlive
  have hkey : EngineOnly s s.keyTaken := EngineOnly.rfl.keyTaken
  have htaken := State.keyTaken_live hlive
  refine ⟨?_, ?_, ?_, ?_, ?_, fun x o hk hx hne ho => ?_, fun c hk hc hpos => ?_, fun hk hx hS => ?_,
    fun hk hno => ?_, fun hk hyes => ?_, fun hk hc herr => ?_, fun hk hc herr => ?_, fun hk hok herr => ?_,
    fun hk hok => ?_⟩
  case refine_1 | refine_2 | refine_3 | refine_4 | refine_5 => rintro rfl; exact exec_run_call he rfl
  all_goals subst hk
  · obtain ⟨m, _, hm, rfl⟩ := run_messages hlive he hx hne ho
    exact ⟨m, hm⟩
  · exact run_verify hlive he hc hpos
  · obtain ⟨S, hS⟩ := Option.ne_none_iff_exists'.mp hS
    exact ⟨_, run_unrecognised hlive he hx hS, ⟨hfaults, rfl, hhalted, rfl, S, hS, by simp⟩, rfl, rfl⟩
  · refine ⟨_, (engRun_add (run_ask hlive he)).trans (run_no (by exact htaken) rfl rfl hno),
      ⟨htaken.1, rfl, htaken.2.2, rfl, by simp⟩, hkey.dev, hkey.hist⟩
  · exact ⟨_, (engRun_add (run_ask hlive he)).trans (run_yes (by exact htaken) rfl rfl hyes), rfl, hkey.dev, hkey.hist⟩
  · exact ⟨_, run_upToDate hlive he hc, ⟨hfaults, rfl, hhalted, herr, by simp⟩, rfl, rfl⟩
  · exact ⟨_, run_timeout hlive he hc, ⟨hfaults, hexit, rfl, herr, by simp⟩, rfl, rfl⟩
  · exact ⟨_, run_complete hlive he hok, ⟨hfaults, hexit, rfl, herr, by simp⟩, rfl, rfl⟩
  · exact ⟨_, run_verifyFailed hlive he hok, ⟨hfaults, hexit, rfl, rfl, by simp⟩, rfl, rfl⟩

end Machine

end Sys2Proof
end

section
/-! PROOFS. The exceptions (60_exceptions.md): a recorded fault stops every agent (R263), and the ISR only
reads, with IF = 1, when no sequence is under way at the device (R186, R265, R280). -/

namespace Sys2Proof

theorem Config.devAddr?_of_devMap_nil {c : Config} (h : c.devMap = []) (q : PhysAddr) : c.devAddr? q = none := by
  simp [Config.devAddr?, Config.sectorOf?, h]

namespace Machine

variable {s t : State} {q : PhysAddr} {v : Byte}

theorem step_of_faults_cons {f : FaultKind} {fs : List FaultKind} (h : s.faults = f :: fs) :
    step s = .fault (.quiescent f) := by
  simp only [step, machineStep, h]

/-- Settles O6: the agents are not looked at. -/
theorem recordedFaultStopsEveryAgent : Obligations.RecordedFaultStopsEveryAgent :=
  fun _ _ _ => step_of_faults_cons

/-! ## What a read can change (R120, R139) -/

/-- `s` with the device's mode and fault, HIST, FAULTS and the count of draws of `t`. -/
def State.withReadOf (s t : State) : State :=
  { s with dev := { s.dev with mode := t.dev.mode, fault := t.dev.fault }, hist := t.hist, faults := t.faults,
           draws := t.draws }

/-- A bus cycle that does not write the RAM changes no more than a read can. -/
theorem BusFrame.eq_withReadOf (h : BusFrame s t) (hram : t.ram = s.ram) : t = s.withReadOf t := by
  simp only [State.withReadOf, ← h.cfg, ← h.array, ← h.D, ← h.img, ← h.orig, ← h.regs, ← h.IF, ← h.tick, ← h.epc,
    ← h.msg, ← h.exit, ← h.halted, ← h.err, ← h.sched, ← h.keys, ← h.queue, ← hram]

theorem isrStep_eq_withReadOf (h : isrStep q s = .next t) : t = s.withReadOf t := by
  obtain ⟨-, rfl⟩ | ⟨-, ⟨v, hb⟩ | hb⟩ := isrStep_cases h
  · rfl
  · obtain ⟨hframe, -, hram, -⟩ := State.busRead_ok hb
    exact hframe.eq_withReadOf hram
  · obtain ⟨-, rfl⟩ | ⟨_, _, -, -, -, rfl⟩ := State.busRead_stop hb <;> rfl

/-! ## A read while the device is in no sequence (R122, R280) -/

/-- In READ, EBUSY and PBUSY the device accepts every read (R122). -/
theorem State.readAnswer_ne_unaccepted_of_calm (h : s.dev.mode.calm) (a : DevAddr) :
    s.readAnswer a ≠ .unaccepted := by
  cases hm : s.dev.mode with
  | read | ebusy | pbusy => simp [State.readAnswer, hm]
  | u1 | u2 | id | e1 | e2 | e3 | p1 | indet => rw [hm] at h; cases h

/-- A performed read leaves a device that is in no sequence and not in ID. -/
theorem State.busRead_ok_dev_of_calm {ag : Agent} (hb : s.busRead ag q.toNat = .ok v t)
    (hcalm : s.cfg.devAddr? q ≠ none → s.dev.mode.calm) : t.dev = s.dev := by
  obtain ⟨hframe, -, -, hfault, q', hq, -, ⟨hdev, -⟩ | ⟨a, m, ha, hdraw, -, hm, -⟩⟩ := State.busRead_ok hb
  · exact hdev
  · obtain rfl : q = q' := by simpa using hq
    have hmode : m = s.dev.mode :=
      KeepsMode.eq_of_calm (State.mode_of_readAnswer_draw hdraw) (hcalm (by simp [ha]))
    calc t.dev = ⟨t.dev.mode, t.dev.array, t.dev.fault⟩ := rfl
      _ = s.dev := by rw [hm, hmode, hframe.array, hfault]

/-- A read of a device that is in no sequence and not in ID, and a read that does not reach the device, is
performed. -/
theorem State.busRead_ne_stop_of_calm {ag : Agent} (hcalm : s.cfg.devAddr? q ≠ none → s.dev.mode.calm) :
    s.busRead ag q.toNat ≠ .stop t := by
  intro hb
  obtain ⟨hq, -⟩ | ⟨q', a, hq, ha, hno, -⟩ := State.busRead_stop hb
  · simp at hq
  · obtain rfl : q = q' := by simpa using hq
    exact State.readAnswer_ne_unaccepted_of_calm (hcalm (by simp [ha])) a hno

theorem isrStep_keeps_device_of_calm (h : isrStep q s = .next t)
    (hcalm : s.cfg.devAddr? q ≠ none → s.dev.mode.calm) :
    t.faults = s.faults ∧ t.dev = s.dev := by
  obtain ⟨-, rfl⟩ | ⟨-, ⟨v, hb⟩ | hb⟩ := isrStep_cases h
  · exact ⟨rfl, rfl⟩
  · exact ⟨(State.busRead_ok hb).2.1, State.busRead_ok_dev_of_calm hb hcalm⟩
  · exact absurd hb (State.busRead_ne_stop_of_calm hcalm)

/-- With IF = 1 a run from RUN leaves the device in no sequence (R186, R280). -/
theorem CriticalInv.calm_of_enabled (h : CriticalInv s) (hf : s.faults = []) (hIF : s.IF = true) : s.dev.mode.calm :=
  (hIF ▸ h hf : Phase s.epc true s.dev.mode).calm_of_enabled

/-- Settles O59: the ISR's step is one read, and the device, if there is one, is in no sequence when it comes. -/
theorem isrOnlyReads : Obligations.IsrOnlyReads := by
  intro s p hf
  refine ⟨fun hIF => isrStep_of_masked hIF p, fun hIF => ?_⟩
  obtain ⟨t, v, h, hhist⟩ := isrStep_of_enabled hIF p
  refine ⟨t, v, h, hhist, isrStep_eq_withReadOf h, fun hsafe => ?_⟩
  have hcalm : s.cfg.devAddr? p ≠ none → s.dev.mode.calm := by
    obtain hs | hnil := hsafe
    · exact fun _ => hs.calm_of_enabled hf hIF
    · exact fun ha => absurd (Config.devAddr?_of_devMap_nil hnil p) ha
  rw [← hf]
  exact isrStep_keeps_device_of_calm h hcalm

end Machine

end Sys2Proof
end
